-- ==== Sys2Proof/Word.lean ====
section
/-! DEFINITION. Sys2Proof/Word.lean: the word types of the SH9 module (R6, R26, R63) and the shape of a sparse table. -/

namespace Sys2Proof

/-- One byte of any memory space (R6). -/
abbrev Byte := BitVec 8
/-- A vector-register element of one lane, or a lane mask with lane i in bit i (R6, R26). -/
abbrev Word32 := BitVec 32
/-- A uniform register, an instruction word, a block header or a pointer (R26, R38, R63). -/
abbrev Word64 := BitVec 64
/-- A 128-byte line; byte n is bits 8n+7 to 8n (R6, R16). -/
abbrev Line := BitVec 1024
/-- One bit for each byte of a line. -/
abbrev ByteMask := BitVec 128
/-- A sheaf: 512 bits (R173, R287). -/
abbrev Sheaf := BitVec 512
/-- A set of lanes, lane i in bit i (R6). -/
abbrev LaneMask := BitVec 32

/-- A sparse table: key and value pairs, keys strictly rising. -/
abbrev Table (α : Type) := List (Nat × α)

end Sys2Proof
end

