-- ==== Sys2Proof/Config.lean ====
section
/-! DEFINITION. Sys2Proof/Config.lean: what the specification leaves to the machine. Each is a constant with no value:
nothing can be proved of it but what the model enforces where it is used. -/

namespace Sys2Proof.Config

/-- FEXP2's fixed function (R116), within its bound. -/
opaque fexp2 : Word32 → Word32
/-- FLOG2's fixed function (R116). -/
opaque flog2 : Word32 → Word32
/-- FSIN's fixed function (R116). -/
opaque fsin : Word32 → Word32
/-- FCOS's fixed function (R116). -/
opaque fcos : Word32 → Word32
/-- FTANH's fixed function (R116). -/
opaque ftanh : Word32 → Word32
/-- FSIGM's fixed function (R116). -/
opaque fsigm : Word32 → Word32

/-- The n-th value that no rule states, drawn by the counter `State.freeCtr`. -/
opaque freeWord : Nat → Word64

/-- The L1 set of a line (R16: placement is not given), a number below 512. -/
opaque l1Set : Nat → Nat
/-- The L2 slice and set of a physical line at an agent (R13: placement is not given): 64 × slice + set. -/
opaque l2Set : Nat → Nat → Nat

/-- The L2 slice at whose port an access to a line of an object is translated (R352: placement is not given). -/
opaque sliceOf : Nat → Nat → Nat

/-- The HBM4E stack that holds a physical line: one of twelve (R13; the placement is not given). -/
opaque stackOf : Nat → Nat

/-- OPC of a packet (R381: its codes but the marker's are not given), by what the packet does. Lower deck and management: 0 copy
write, 1 copy read, 2 step data, 3 read data, 4 acknowledgement, 5 error response, 6 step abort, 16 + n an atomic of code n of
R165. Upper deck: 7 read request, 8 ownership request, 9 mask request, 10 write-back, 11 notice of a sharer's eviction, 12 read
forward, 13 ownership forward, 14 invalidate, 15 convert, 32 gather, 33 recall, 34 mirror update, 35 response, 5 error response. -/
opaque opcode : Nat → BitVec 6

/-- Signature with the device key (R449), which never leaves the fuse block: of a nonce and the eight slots. -/
opaque deviceSign : BitVec 256 → List (BitVec 384) → BitVec 768

end Sys2Proof.Config
end

