-- ==== Sys2Proof/Syntax.lean ====
section
/-! DEFINITION. Sys2Proof/Syntax.lean: the operations of spec/opcode_table.json, one constructor a row.
The first 150 rows are instruction words: they carry the fields of their format (R70, R80), which Decode.lean cuts
out of the 64-bit word once. The other rows are steps of the module that no word encodes (spec/95_what_each_step_holds.md):
they carry what the outside world or the order of outstanding work supplies to that step. -/

namespace Sys2Proof

/-- Format A, three-register; format E is format A with C naming the first descriptor register (R70, R76). -/
structure FmtA where
  /-- D, bits [55:48]. -/
  d : BitVec 8
  /-- A, bits [47:40]. -/
  a : BitVec 8
  /-- B, bits [39:32]. -/
  b : BitVec 8
  /-- C, bits [31:24]. -/
  c : BitVec 8
  /-- TYPE, bits [23:20]. -/
  ty : BitVec 4
  /-- GUARD, bits [19:16]: bit 3 negates, bits [2:0] name the predicate. -/
  guard : BitVec 4
  /-- TRAPSEL, bits [15:13]: bit 2 for A, bit 1 for B, bit 0 for C. -/
  trap : BitVec 3
  /-- MOD, bits [12:0]. -/
  mod : BitVec 13
  deriving DecidableEq, Repr

/-- Format I, immediate (R70). -/
structure FmtI where
  /-- D, bits [55:48]. -/
  d : BitVec 8
  /-- A, bits [47:40]. -/
  a : BitVec 8
  /-- IMM32, bits [39:8]. -/
  imm : BitVec 32
  /-- TYPE, bits [7:4]. -/
  ty : BitVec 4
  /-- GUARD, bits [3:0]. -/
  guard : BitVec 4
  deriving DecidableEq, Repr

/-- Format J, branch and loop (R70). -/
structure FmtJ where
  /-- L, bits [55:48]. -/
  l : BitVec 8
  /-- A, bits [47:40]. -/
  a : BitVec 8
  /-- OFF32, bits [39:8]. -/
  off : BitVec 32
  /-- MOD, bits [7:4]. -/
  mod : BitVec 4
  /-- GUARD, bits [3:0]. -/
  guard : BitVec 4
  deriving DecidableEq, Repr

/-- Format M, memory (R70). -/
structure FmtM where
  /-- D, bits [55:48]. -/
  d : BitVec 8
  /-- A, bits [47:40]. -/
  a : BitVec 8
  /-- B, bits [39:32]. -/
  b : BitVec 8
  /-- OFF12, bits [31:20]. -/
  off : BitVec 12
  /-- GUARD, bits [19:16]. -/
  guard : BitVec 4
  /-- TRAPSEL, bits [15:13]. -/
  trap : BitVec 3
  /-- SIZE, bits [12:9]. -/
  size : BitVec 4
  /-- SCOPE, bits [8:7]. -/
  scope : BitVec 2
  /-- ORDER, bits [6:5]. -/
  order : BitVec 2
  /-- MOD, bits [4:0]. -/
  mod : BitVec 5
  deriving DecidableEq, Repr

/-- A disturbance of one chunk's integer sum T in the matrix engine (R61, R275): the hardware error that the
residue check looks for, given to the step that runs the operation. -/
structure ChunkUpset where
  /-- Output row. -/
  row : Nat
  /-- Output column. -/
  col : Nat
  /-- Chunk number, from 0 in ascending K. -/
  chunk : Nat
  /-- What the error adds to T. -/
  delta : Int
  /-- The error repeats when the chunk is recomputed. -/
  persistent : Bool
  deriving DecidableEq, Repr

/-- How an outstanding write or line operation ends (R196, R270). -/
inductive AckOutcome where
  /-- Acknowledged at the destination. -/
  | done
  /-- Failed with a fault class of R426. -/
  | failed (cls : Nat)
  deriving DecidableEq, Repr

/-- A control-space line as its home names it (R363): the physical line number, pa[55:7], and the module of the
mirror home. -/
structure LineRef where
  /-- pa[55:7]. -/
  line : Nat
  /-- MIRROR of the leaf. -/
  mirror : Nat
  deriving DecidableEq, Repr

/-- A 64-bit word of a register map of the scheduler or configuration object (R7): the map's rule, the entry's number, and
the word's number in the entry, word 0 its bits [63:0]. -/
inductive MapWord where
  /-- Context table (R323), words 0–3. -/
  | context (ctx word : Nat)
  /-- Queue table (R325), words 0–1. -/
  | queue (queue word : Nat)
  /-- Object root table (R346), words 0–1. -/
  | root (ctx word : Nat)
  /-- Translation control line (R353), words 0–15. -/
  | translation (word : Nat)
  /-- Resume table (R356). -/
  | resume (ctx : Nat)
  /-- Migration entry (R358), words 0–3. -/
  | migration (ctl entry word : Nat)
  /-- Way mask of a class of service (R360). -/
  | cosMask (cls : Nat)
  /-- Occupancy counter of an L2 slice of a die for a class (R360). -/
  | occupancy (die slice cls : Nat)
  /-- Class of service of host-core fills (R360). -/
  | hostCos
  /-- Status register of a port (R380). -/
  | port (router port : Nat)
  /-- Routing table entry (R382). -/
  | route (router dest : Nat)
  /-- FTO (R386). -/
  | fto
  /-- Window table entry (R387), words 0–3. -/
  | window (ctx peer word : Nat)
  /-- HEAD word of the gang queue (R395). -/
  | gangHead
  /-- TAIL word of the gang queue (R395). -/
  | gangTail
  /-- Command slot of the gang queue (R395), words 0–15. -/
  | gang (slot word : Nat)
  /-- Region entry (R411), words 0–3. -/
  | region (index word : Nat)
  /-- Queue-pair entry (R412), words 0–7. -/
  | queuePair (index word : Nat)
  /-- LIVE mask (R431), words 0–3. -/
  | live (word : Nat)
  /-- MEPOCH (R431). -/
  | mepoch
  /-- Boot status word (R448). -/
  | boot
  /-- Island control entry (R450), words 0–1. -/
  | island (index word : Nat)
  /-- Module power word (R452). -/
  | power
  deriving DecidableEq, Repr

/-- What a host agent names (R409). -/
inductive HostTarget where
  /-- A pointer in the object space of a context. -/
  | pointer (ctx : Nat) (ptr : Word64)
  /-- A physical address of control space with the module of its mirror home. -/
  | physical (pa mirror : Nat)
  /-- A physical address of tensor space. -/
  | tensor (pa : Nat)
  /-- A word of a register map, which the host reads and writes whole. -/
  | register (word : MapWord)
  deriving DecidableEq, Repr

/-- What a host agent does there. -/
inductive HostOp where
  /-- Read so many bytes. -/
  | read (count : Nat)
  /-- Write these bytes. -/
  | write (bytes : List Byte)
  /-- An atomic of R165 with its operation code, width in bytes, operand and comparison value. -/
  | atomic (op width : Nat) (operand compare : Word64)
  deriving DecidableEq, Repr

/-- A system-scope access by a host core or through a host port (R23, R409). -/
structure HostAccess where
  /-- X-die of the agent, 0 or 1. -/
  die : Nat
  /-- The place accessed. -/
  target : HostTarget
  /-- What is done. -/
  op : HostOp
  deriving DecidableEq, Repr

/-- What arrives on a Taloz link (R379, R384): a flit of 64 bytes with the link sequence number and CRC that travel
outside them, the far end's acknowledgement, and the credits that it returns. -/
structure LinkFlit where
  /-- Channel 0 to 6: lower 0 to 2, upper 3 to 5, management 6; 7 when no flit comes. -/
  chan : Nat
  /-- Link sequence number. -/
  seq : Nat
  /-- The CRC matches. -/
  crcOk : Bool
  /-- The 64 bytes. -/
  data : BitVec 512
  /-- Every flit up to and including this link sequence number has been accepted. -/
  ack : Option Nat
  /-- Channels of which the far end has freed one flit of buffer. -/
  credits : List Nat
  deriving DecidableEq, Repr

/-- What the answer to a lower-deck request carries (R383, R386). -/
inductive LowerResult where
  /-- The request was performed at its destination: the bytes that its answer carries, those of a read or the old value of an
  atomic; none where it carries none. -/
  | performed (data : List Byte)
  /-- An error response of a fault class of R426. -/
  | error (cls : Nat)
  deriving DecidableEq, Repr

/-- A step-data packet at this module's router (R389). -/
structure StepPacket where
  /-- Sending module. -/
  peer : Nat
  /-- Job of the sending context. -/
  job : Nat
  /-- Chain tag. -/
  chain : Nat
  /-- Count k of the sender's step among its steps of this chain that name this module (R390). -/
  step : Nat
  /-- N of the sender's step. -/
  count : Nat
  /-- Index of the first element. -/
  first : Nat
  /-- FP32 values, at most 64. -/
  values : List Word32
  deriving DecidableEq, Repr

/-- Verb of an RDMA request (R413). -/
inductive RdmaVerb where
  /-- .write -/
  | write
  /-- .writei -/
  | writei
  /-- .read -/
  | read
  /-- .send -/
  | send
  deriving DecidableEq, Repr

/-- A RoCEv2 packet that reaches a responder queue pair (R411, R415). -/
structure RdmaPacket where
  /-- Target queue pair. -/
  qp : Nat
  /-- 24-bit packet sequence number. -/
  psn : Nat
  /-- Verb of the message. -/
  verb : RdmaVerb
  /-- Region key. -/
  key : Word32
  /-- Byte offset in the region where this packet's bytes go or come from. -/
  offset : Nat
  /-- Length of the whole message. -/
  length : Nat
  /-- Bytes carried (for .read, none). -/
  bytes : List Byte
  /-- The last packet of its message. -/
  last : Bool
  /-- The immediate. -/
  imm : Word32
  deriving DecidableEq, Repr

/-- An acknowledgement or response that reaches a requester queue pair (R414, R415). -/
structure RdmaAck where
  /-- An acknowledgement: every packet up to and including this PSN is acknowledged. Any other answer: the PSN of its packet. -/
  psn : Nat
  /-- Completion status of R414; 0 is success. -/
  status : Nat
  /-- Response bytes of a .read and their offset in the message. -/
  bytes : List Byte
  /-- Offset of the response bytes. -/
  offset : Nat
  deriving DecidableEq, Repr

/-- A negotiated host link (R409). -/
structure HostLink where
  /-- PCIe generation: 5, 6 or 7. -/
  gen : Nat
  /-- Lanes: 16, 8 or 4. -/
  width : Nat
  /-- FLIT mode. -/
  flit : Bool
  /-- CXL version times ten (32 or 20), or 0 for PCIe alone. -/
  cxl : Nat
  deriving DecidableEq, Repr

/-- Where a soft error is found (R428, R429). -/
inductive ErrorSite where
  /-- A register of a group: core, slot, register index of R39, and the lane whose word reads it. -/
  | register (core slot reg lane : Nat)
  /-- An 8-byte unit of a cached L1 line: core, context, pointer line number; and the group slot and lane that read it. -/
  | l1 (core ctx line slot lane : Nat)
  /-- An 8-byte unit of scratchpad at a core address, and the group slot and lane that read it. -/
  | scratch (core addr slot lane : Nat)
  /-- An element of the accumulator memory: core, physical tile, element. -/
  | tile (core tile elem : Nat)
  /-- A line held by a caching agent at L2. -/
  | l2 (agent : Nat) (line : LineRef)
  /-- Park table, bins, queue or convergence registers of a core. -/
  | table (core ctx : Nat)
  /-- The packet at the head of a router's input buffer. -/
  | router (router input chan : Nat)
  /-- Parity of the operation running on a core's matrix engine. -/
  | matrix (core : Nat)
  /-- Parity of a step engine: core and step slot. -/
  | step (core slot : Nat)
  /-- A line of HBM4E or LPDDR6. -/
  | memory (line : Nat)
  deriving DecidableEq, Repr

/-- The images of the boot phases (R448): digests measured into slots 0 to 3, whether the first-stage signature
verifies, and the first phase that fails, if any. -/
structure BootImages where
  /-- Digest of the first-stage image. -/
  first : BitVec 384
  /-- Digest measured in phase 2. -/
  second : BitVec 384
  /-- Digest of the host-core firmware. -/
  hostFw : BitVec 384
  /-- Digest of the scheduler firmware. -/
  schedFw : BitVec 384
  /-- The phase, 1 to 5, that fails; none when the boot succeeds. -/
  failing : Option Nat
  deriving DecidableEq, Repr

/-- A configuration field that software writes and that has no behaviour of its own beyond holding the value
(R7; the field's rule is named at each constructor). -/
inductive ConfigReg where
  /-- Context table JOB (R323). -/
  | ctxJob (ctx : Nat)
  /-- Context table COS (R323). -/
  | ctxCos (ctx : Nat)
  /-- Context table PREQ (R323). -/
  | ctxPreq (ctx : Nat)
  /-- Context table RREQ (R323). -/
  | ctxRreq (ctx : Nat)
  /-- Context table CLMASK (R323). -/
  | ctxClmask (ctx : Nat)
  /-- Context table SAVE (R323). -/
  | ctxSave (ctx : Nat)
  /-- Context table FLOG (R323). -/
  | ctxFlog (ctx : Nat)
  /-- Queue table QPTR (R325). -/
  | queueQptr (queue : Nat)
  /-- Queue table LOGN (R325). -/
  | queueLogn (queue : Nat)
  /-- Queue table CTX (R325). -/
  | queueCtx (queue : Nat)
  /-- Object root table OTBASE (R346). -/
  | rootOtbase (ctx : Nat)
  /-- Object root table ONUM (R346). -/
  | rootOnum (ctx : Nat)
  /-- Resume word of a context (R356). -/
  | resume (ctx : Nat)
  /-- Migration entry SRC (R358). -/
  | migSrc (ctl entry : Nat)
  /-- Migration entry DST (R358). -/
  | migDst (ctl entry : Nat)
  /-- Migration entry LINES (R358). -/
  | migLines (ctl entry : Nat)
  /-- Migration entry MODE (R358). -/
  | migMode (ctl entry : Nat)
  /-- Way mask of a class of service (R360). -/
  | cosMask (cls : Nat)
  /-- Class of service of host-core fills (R360). -/
  | hostCos
  /-- Port EN written 1 (R380). -/
  | portEnable (router port : Nat)
  /-- Port GENCAP (R380). -/
  | portGencap (router port : Nat)
  /-- Port RETRY, write one to clear (R380). -/
  | portRetry (router port : Nat)
  /-- Routing table entry (R382). -/
  | route (router dest : Nat)
  /-- FTO (R386). -/
  | fto
  /-- Gang queue TAIL (R395). -/
  | gangTail
  /-- A 64-bit word of a gang command slot (R395). -/
  | gangWord (slot word : Nat)
  /-- A 64-bit word of a region entry (R411). -/
  | region (index word : Nat)
  /-- A 64-bit word of a queue-pair entry (R412). -/
  | qpWord (index word : Nat)
  /-- Pointer of the module error log, in the object space of a context (R423). -/
  | errLog (ctx : Nat)
  /-- The module identifier given at bring-up (R35, R345). -/
  | moduleId
  /-- IEEE 1588 time set at bring-up (R35). -/
  | ptime
  /-- Bytes of the context save areas, granary and snapshot-drain regions of tier-2 (R22). -/
  | carve (region : Nat)
  deriving DecidableEq, Repr

/-- The operations of spec/opcode_table.json. -/
inductive Instr where
  /-- NOP (R156). -/
  | nop
  /-- IADD (R93). -/
  | iadd (f : FmtA)
  /-- IADDC (R94). -/
  | iaddc (f : FmtA)
  /-- IADDS (R94). -/
  | iadds (f : FmtA)
  /-- ISUB (R93). -/
  | isub (f : FmtA)
  /-- ISUBB (R94). -/
  | isubb (f : FmtA)
  /-- ISUBS (R94). -/
  | isubs (f : FmtA)
  /-- IMUL (R93). -/
  | imul (f : FmtA)
  /-- IMULH (R95). -/
  | imulh (f : FmtA)
  /-- IMAD (R93). -/
  | imad (f : FmtA)
  /-- IMADW (R96). -/
  | imadw (f : FmtA)
  /-- IDOT4 (R97). -/
  | idot4 (f : FmtA)
  /-- IDOT2 (R97). -/
  | idot2 (f : FmtA)
  /-- IABS (R93). -/
  | iabs (f : FmtA)
  /-- INEG (R93). -/
  | ineg (f : FmtA)
  /-- IMIN (R93). -/
  | imin (f : FmtA)
  /-- IMAX (R93). -/
  | imax (f : FmtA)
  /-- IAVG (R93). -/
  | iavg (f : FmtA)
  /-- ICMP (R98). -/
  | icmp (f : FmtA)
  /-- ISEL (R99). -/
  | isel (f : FmtA)
  /-- IPOPC (R100). -/
  | ipopc (f : FmtA)
  /-- ICLZ (R100). -/
  | iclz (f : FmtA)
  /-- IBREV (R100). -/
  | ibrev (f : FmtA)
  /-- IBFX (R101). -/
  | ibfx (f : FmtA)
  /-- IBFI (R101). -/
  | ibfi (f : FmtA)
  /-- AND (R102). -/
  | bitAnd (f : FmtA)
  /-- OR (R102). -/
  | bitOr (f : FmtA)
  /-- XOR (R102). -/
  | bitXor (f : FmtA)
  /-- NOT (R102). -/
  | bitNot (f : FmtA)
  /-- ANDN (R102). -/
  | andn (f : FmtA)
  /-- SHL (R103). -/
  | shl (f : FmtA)
  /-- SHR (R103). -/
  | shr (f : FmtA)
  /-- SRA (R103). -/
  | sra (f : FmtA)
  /-- ROTL (R103). -/
  | rotl (f : FmtA)
  /-- FSHL (R103). -/
  | fshl (f : FmtA)
  /-- PERM (R104). -/
  | perm (f : FmtA)
  /-- LEA (R105). -/
  | lea (f : FmtA)
  /-- IADDI (R106). -/
  | iaddi (f : FmtI)
  /-- IMULI (R106). -/
  | imuli (f : FmtI)
  /-- ANDI (R106). -/
  | andi (f : FmtI)
  /-- ORI (R106). -/
  | ori (f : FmtI)
  /-- XORI (R106). -/
  | xori (f : FmtI)
  /-- SHLI (R106). -/
  | shli (f : FmtI)
  /-- SHRI (R106). -/
  | shri (f : FmtI)
  /-- SRAI (R106). -/
  | srai (f : FmtI)
  /-- ICMPI (R106). -/
  | icmpi (f : FmtI)
  /-- MOVI (R106). -/
  | movi (f : FmtI)
  /-- FADD (R111). -/
  | fadd (f : FmtA)
  /-- FSUB (R111). -/
  | fsub (f : FmtA)
  /-- FMUL (R111). -/
  | fmul (f : FmtA)
  /-- FFMA (R111). -/
  | ffma (f : FmtA)
  /-- FMIN (R112). -/
  | fmin (f : FmtA)
  /-- FMAX (R112). -/
  | fmax (f : FmtA)
  /-- FMINM (R112). -/
  | fminm (f : FmtA)
  /-- FMAXM (R112). -/
  | fmaxm (f : FmtA)
  /-- FCMP (R113). -/
  | fcmp (f : FmtA)
  /-- FCLASS (R114). -/
  | fclass (f : FmtA)
  /-- FRCP (R115). -/
  | frcp (f : FmtA)
  /-- FRSQ (R115). -/
  | frsq (f : FmtA)
  /-- FSQRT (R115). -/
  | fsqrt (f : FmtA)
  /-- FDIV (R115). -/
  | fdiv (f : FmtA)
  /-- FEXP2 (R116). -/
  | fexp2 (f : FmtA)
  /-- FLOG2 (R116). -/
  | flog2 (f : FmtA)
  /-- FSIN (R116). -/
  | fsin (f : FmtA)
  /-- FCOS (R116). -/
  | fcos (f : FmtA)
  /-- FTANH (R116). -/
  | ftanh (f : FmtA)
  /-- FSIGM (R116). -/
  | fsigm (f : FmtA)
  /-- FRND (R117). -/
  | frnd (f : FmtA)
  /-- FSCALE (R117). -/
  | fscale (f : FmtA)
  /-- FFRAC (R117). -/
  | ffrac (f : FmtA)
  /-- FDOT2 (R118). -/
  | fdot2 (f : FmtA)
  /-- CVT (R119). -/
  | cvt (f : FmtA)
  /-- CVTSR (R120). -/
  | cvtsr (f : FmtA)
  /-- PACK (R121). -/
  | pack (f : FmtA)
  /-- UNPK (R122). -/
  | unpk (f : FmtA)
  /-- QMX (R123). -/
  | qmx (f : FmtA)
  /-- DQMX (R124). -/
  | dqmx (f : FmtA)
  /-- MOV (R129). -/
  | mov (f : FmtA)
  /-- MOVS (R130). -/
  | movs (f : FmtA)
  /-- MOVX (R131). -/
  | movx (f : FmtA)
  /-- SHFL (R132). -/
  | shfl (f : FmtA)
  /-- VOTE (R133). -/
  | vote (f : FmtA)
  /-- MATCH (R134). -/
  | matchLanes (f : FmtA)
  /-- FOLD (R135). -/
  | fold (f : FmtA)
  /-- PLOP (R136). -/
  | plop (f : FmtA)
  /-- BR (R143). -/
  | br (f : FmtJ)
  /-- BRD (R140). -/
  | brd (f : FmtJ)
  /-- BRX (R143). -/
  | brx (f : FmtA)
  /-- CALL (R144). -/
  | call (f : FmtJ)
  /-- CALLX (R144). -/
  | callx (f : FmtA)
  /-- RET (R144). -/
  | ret (f : FmtA)
  /-- LOOP (R145). -/
  | loop (f : FmtJ)
  /-- LOOPI (R145). -/
  | loopi (f : FmtJ)
  /-- LBRK (R148). -/
  | lbrk (f : FmtJ)
  /-- SPAWN (R149). -/
  | spawn (f : FmtJ)
  /-- WINNOW (R150). -/
  | winnow (f : FmtJ)
  /-- EXIT (R151). -/
  | exit (f : FmtA)
  /-- YIELD (R152). -/
  | yield (f : FmtA)
  /-- LDC (R159). -/
  | ldc (f : FmtM)
  /-- STC (R159). -/
  | stc (f : FmtM)
  /-- LDS (R159). -/
  | lds (f : FmtM)
  /-- STS (R159). -/
  | sts (f : FmtM)
  /-- LDM (R159). -/
  | ldm (f : FmtM)
  /-- STM (R159). -/
  | stm (f : FmtM)
  /-- LDW (R161). -/
  | ldw (f : FmtM)
  /-- STW (R161). -/
  | stw (f : FmtM)
  /-- CCTL (R168). -/
  | cctl (f : FmtM)
  /-- ATC (R166). -/
  | atc (f : FmtM)
  /-- ATS (R166). -/
  | ats (f : FmtM)
  /-- ATT (R166). -/
  | att (f : FmtM)
  /-- FENCE (R169). -/
  | fence (f : FmtM)
  /-- FENCESC (R170). -/
  | fencesc (f : FmtM)
  /-- TFENCE (R171). -/
  | tfence (f : FmtM)
  /-- WAITA (R172). -/
  | waita (f : FmtM)
  /-- SLINIT (R174). -/
  | slinit (f : FmtM)
  /-- BINIT (R180). -/
  | binit (f : FmtA)
  /-- BEXP (R180). -/
  | bexp (f : FmtA)
  /-- BARV (R180). -/
  | barv (f : FmtA)
  /-- BWAIT (R181). -/
  | bwait (f : FmtA)
  /-- BTEST (R181). -/
  | btest (f : FmtA)
  /-- TBAR (R182). -/
  | tbar (f : FmtA)
  /-- GBAR (R183). -/
  | gbar (f : FmtA)
  /-- QINIT (R186). -/
  | qinit (f : FmtA)
  /-- QPUSH (R187). -/
  | qpush (f : FmtA)
  /-- QPOP (R187). -/
  | qpop (f : FmtA)
  /-- QALLOW (R187). -/
  | qallow (f : FmtA)
  /-- CVINIT (R188). -/
  | cvinit (f : FmtA)
  /-- ACALLOC (R189). -/
  | acalloc (f : FmtA)
  /-- ACFREE (R190). -/
  | acfree (f : FmtA)
  /-- MMA (R205). -/
  | mma (f : FmtA)
  /-- MMASP (R205). -/
  | mmasp (f : FmtA)
  /-- MMV (R212). -/
  | mmv (f : FmtA)
  /-- MLDT (R210). -/
  | mldt (f : FmtA)
  /-- MZERO (R209). -/
  | mzero (f : FmtA)
  /-- MEPI (R211). -/
  | mepi (f : FmtA)
  /-- TCPY (R215). -/
  | tcpy (f : FmtA)
  /-- TCPO (R215). -/
  | tcpo (f : FmtA)
  /-- GCPY (R218). -/
  | gcpy (f : FmtA)
  /-- SCPY (R218). -/
  | scpy (f : FmtA)
  /-- WCPY (R219). -/
  | wcpy (f : FmtA)
  /-- DRAIN (R220). -/
  | drain (f : FmtA)
  /-- CSTEP (R222). -/
  | cstep (f : FmtA)
  /-- CABORT (R224). -/
  | cabort (f : FmtA)
  /-- NPOST (R225). -/
  | npost (f : FmtA)
  /-- LAUNCH (R226). -/
  | launch (f : FmtA)
  /-- TRAP (R227). -/
  | trap (f : FmtI)
  /-- TRET (R229). -/
  | tret (f : FmtA)
  /-- BRKPT (R227). -/
  | brkpt (f : FmtI)
  /-- PKEYW (R230). -/
  | pkeyw (f : FmtA)
  /-- CAPSUB (R231). -/
  | capsub (f : FmtA)
  /-- ISSUE_CYCLE (R241). -/
  | issueCycle
  /-- STARVATION_GUARD (R241). -/
  | starvationGuard (core part : Nat)
  /-- LONG_LATENCY_RESULT (R31). -/
  | longLatencyResult (core id : Nat)
  /-- PARK_WAKE (R254). -/
  | parkWake (core slot rec : Nat)
  /-- RECONV_MERGE (R244). -/
  | reconvMerge (core slot : Nat)
  /-- RECONV_LONE_RESUME (R244). -/
  | reconvLoneResume (core slot rec : Nat)
  /-- BIN_TIMER_EXPIRY (R249). -/
  | binTimerExpiry (core bin : Nat)
  /-- BIN_GROUP_LAUNCH (R250). -/
  | binGroupLaunch (core : Nat)
  /-- GROUP_END (R151). -/
  | groupEnd (core slot : Nat)
  /-- TEAM_END (R236). -/
  | teamEnd (core team : Nat)
  /-- MATRIX_OP_START (R273). -/
  | matrixOpStart (core : Nat) (upsets : List ChunkUpset)
  /-- MATRIX_OP_END (R274). -/
  | matrixOpEnd (core : Nat)
  /-- MATCHECK_FAULT_DELIVERY (R276). -/
  | matcheckFaultDelivery (core slot rec : Nat)
  /-- MMV_RESULTS_RETURN (R278). -/
  | mmvResultsReturn (core slot : Nat) (uncorrectable : Bool)
  /-- ENGINE_ARBITRATION_ROUND (R269). -/
  | engineArbitrationRound (engine : Nat)
  /-- COPY_LINE_ACK (R270). -/
  | copyLineAck (core slot : Nat) (outcome : AckOutcome)
  /-- COPY_HOLD_RELEASE (R216). -/
  | copyHoldRelease (core slot : Nat)
  /-- LAUNCH_ENQUEUE (R326). -/
  | launchEnqueue (core slot rec : Nat)
  /-- DEVICE_TICK (R170). -/
  | deviceTick
  /-- SYSTEM_TICK (R170). -/
  | systemTick
  /-- SCRATCH_PIN (R262). -/
  | scratchPin (core : Nat)
  /-- SCHEDULER_TAIL_REREAD (R326). -/
  | schedulerTailReread (queue : Nat)
  /-- LAUNCH_DISPATCH (R330). -/
  | launchDispatch (queue : Nat)
  /-- TEAM_ADMIT (R331). -/
  | teamAdmit
  /-- LAUNCH_COMPLETE (R335). -/
  | launchComplete (launch : Nat)
  /-- CONTEXT_VALIDATE (R323). -/
  | contextValidate (ctx : Nat)
  /-- CONTEXT_END (R324). -/
  | contextEnd (ctx : Nat)
  /-- CONTEXT_FREE (R324). -/
  | contextFree (ctx : Nat)
  /-- PREEMPT_REQUEST (R337). -/
  | preemptRequest (ctx : Nat)
  /-- PREEMPT_SAVE (R338). -/
  | preemptSave (ctx : Nat)
  /-- SAVED_ARRIVAL (R339). -/
  | savedArrival (ctx item : Nat)
  /-- RESTORE_REQUEST (R343). -/
  | restoreRequest (ctx : Nat)
  /-- CONTEXT_RESTORE (R343). -/
  | contextRestore (ctx : Nat)
  /-- QUEUE_DISABLE (R325). -/
  | queueDisable (queue : Nat)
  /-- CONFIG_REGISTER_WRITE (R7). -/
  | configRegisterWrite (reg : ConfigReg) (value : Word64)
  /-- TRANSLATION_WALK (R350). -/
  | translationWalk (die ctx : Nat) (ptr : Word64)
  /-- TSEQ_WRITE (R353). -/
  | tseqWrite (value : Word64)
  /-- TDONE_UPDATE (R353). -/
  | tdoneUpdate
  /-- SNAPSHOT_CLAIM (R436). -/
  | snapshotClaim (core slot : Nat)
  /-- SNAPSHOT_EARLY_COPY (R437). -/
  | snapshotEarlyCopy (ctl entry line : Nat)
  /-- RESUME_REISSUE (R356). -/
  | resumeReissue (ctx : Nat)
  /-- RESUME_DELIVER_TRAP (R356). -/
  | resumeDeliverTrap (ctx : Nat)
  /-- RESUME_END_LANES (R356). -/
  | resumeEndLanes (ctx : Nat)
  /-- RESUME_ENGINE_RETRY (R356). -/
  | resumeEngineRetry (ctx : Nat)
  /-- RESUME_ENGINE_END (R356). -/
  | resumeEngineEnd (ctx : Nat)
  /-- TRANSLATION_RETRY (R356). -/
  | translationRetry (pa : Nat)
  /-- MIGRATION_ENABLE (R358). -/
  | migrationEnable (ctl entry : Nat)
  /-- MOVE_LINE_COPY (R359). -/
  | moveLineCopy (ctl entry : Nat)
  /-- MIGRATION_DISABLE (R359). -/
  | migrationDisable (ctl entry : Nat)
  /-- HOME_READ_REQUEST (R367). -/
  | homeReadRequest (line : LineRef) (agent : Nat) (acquire : Bool)
  /-- HOME_OWNERSHIP_REQUEST (R367). -/
  | homeOwnershipRequest (line : LineRef) (agent : Nat) (whole : Bool) (mask : ByteMask) (data : Line)
  /-- HOME_MASK_REQUEST (R367). -/
  | homeMaskRequest (line : LineRef) (agent : Nat) (mask : ByteMask) (data : Line)
  /-- HOME_WRITE_BACK (R367). -/
  | homeWriteBack (line : LineRef) (agent : Nat)
  /-- SHARER_EVICT_NOTICE (R365). -/
  | sharerEvictNotice (line : LineRef) (agent : Nat)
  /-- READ_FORWARD (R365). -/
  | readForward (line : LineRef) (agent reader : Nat)
  /-- OWNERSHIP_FORWARD (R365). -/
  | ownershipForward (line : LineRef) (agent reader : Nat)
  /-- INVALIDATE (R365). -/
  | invalidate (line : LineRef) (agent : Nat)
  /-- CONVERT (R369). -/
  | convert (line : LineRef) (agent : Nat)
  /-- GATHER (R371). -/
  | gather (line : LineRef)
  /-- RECALL (R372). -/
  | recall (line : LineRef) (agent : Nat)
  /-- MIRROR_UPDATE (R374). -/
  | mirrorUpdate (line : LineRef)
  /-- CONTENTION_EXPIRY (R368). -/
  | contentionExpiry (line : LineRef)
  /-- HOST_ACCESS (R409). -/
  | hostAccess (access : HostAccess)
  /-- PORT_TRAINING_COMPLETE (R379). -/
  | portTrainingComplete (router port : Nat) (gencap : BitVec 2) (peer pport : Nat)
  /-- PORT_TRAINING_TIMEOUT (R380). -/
  | portTrainingTimeout (router port : Nat)
  /-- PORT_DISABLE (R380). -/
  | portDisable (router port : Nat)
  /-- FLIT_RECEIVE (R379). -/
  | flitReceive (router port : Nat) (flit : LinkFlit)
  /-- FLIT_RETRY_TIMEOUT (R379). -/
  | flitRetryTimeout (router port : Nat)
  /-- PACKET_ROUTE (R382). -/
  | packetRoute (router input chan : Nat)
  /-- FABRIC_TIMEOUT (R386). -/
  | fabricTimeout (tag : Nat) (performed : Bool)
  /-- LOWER_COMPLETION (R388). -/
  | lowerCompletion (tag : Nat) (result : LowerResult)
  /-- STEP_PAIR (R390). -/
  | stepPair (core slot : Nat)
  /-- STEP_DATA_ARRIVAL (R389). -/
  | stepDataArrival (packet : StepPacket)
  /-- STEP_RESULTS_FORMED (R222). -/
  | stepResultsFormed (core slot : Nat)
  /-- STEP_OUT_ACK (R392). -/
  | stepOutAck (core slot : Nat) (outcome : AckOutcome)
  /-- STEP_DEADLINE (R223). -/
  | stepDeadline (core slot : Nat)
  /-- STEP_ABORT_RECEIVE (R393). -/
  | stepAbortReceive (peer job chain step : Nat)
  /-- GANG_SWITCH_OUT (R397). -/
  | gangSwitchOut
  /-- GANG_RESTORE (R405). -/
  | gangRestore
  /-- GANG_QUIESCE (R407). -/
  | gangQuiesce
  /-- GANG_START (R397). -/
  | gangStart
  /-- MARKER_ARRIVAL (R398). -/
  | markerArrival (router port chan : Nat) (header : BitVec 512)
  /-- SWEEP_PACKET (R399). -/
  | sweepPacket (router input chan : Nat)
  /-- SWEEP_TIMEOUT (R400). -/
  | sweepTimeout (router input chan : Nat)
  /-- SWITCH_OUT_DONE (R404). -/
  | switchOutDone
  /-- LATE_PACKET (R406). -/
  | latePacket (router input chan : Nat)
  /-- QP_ENABLE (R412). -/
  | qpEnable (qp : Nat)
  /-- QP_RESET (R412). -/
  | qpReset (qp : Nat)
  /-- RDMA_PACKET_RECEIVE (R415). -/
  | rdmaPacketReceive (packet : RdmaPacket)
  /-- RDMA_ACK_RECEIVE (R414). -/
  | rdmaAckReceive (qp : Nat) (ack : RdmaAck)
  /-- RDMA_RESEND_TIMEOUT (R415). -/
  | rdmaResendTimeout (qp : Nat)
  /-- FRAME_TO_HOST (R410). -/
  | frameToHost (port : Nat) (frame : List Byte)
  /-- ETHERNET_LINK_TRAINING (R410). -/
  | ethernetLinkTraining (port rate : Nat)
  /-- HOST_PORT_TRAINING (R409). -/
  | hostPortTraining (port : Nat) (link : HostLink)
  /-- LIVE_CHANGE (R431). -/
  | liveChange (live : BitVec 256) (epoch : Word64)
  /-- ERROR_CORRECTED (R428). -/
  | errorCorrected (site : ErrorSite)
  /-- ERROR_UNCORRECTABLE (R428). -/
  | errorUncorrectable (site : ErrorSite)
  /-- RESET_RELEASE (R448). -/
  | resetRelease (boot : BootImages)
  /-- MEASUREMENT_EXTEND (R449). -/
  | measurementExtend (slot : Nat) (digest : BitVec 384)
  /-- SPDM_GET_MEASUREMENTS (R449). -/
  | spdmGetMeasurements (nonce : BitVec 256)
  /-- FTGT_WRITE (R450). -/
  | ftgtWrite (island : Nat) (value : BitVec 7)
  /-- PCAP_WRITE (R452). -/
  | pcapWrite (value : BitVec 12)
  /-- CAPPING_STEP (R452). -/
  | cappingStep (watts : Nat) (sensors : List (Nat × Nat))
  /-- OVERCURRENT (R452). -/
  | overcurrent
  /-- THERMAL_STEP (R453). -/
  | thermalStep (island : Nat) (milliCelsius : Nat)
  /-- THERMAL_SHUTDOWN (R453). -/
  | thermalShutdown
  /-- MODULE_RESET (R455). -/
  | moduleReset
  /-- QUEUE_ENABLE (R325). -/
  | queueEnable (queue : Nat)
  /-- THERM_CLEAR (R453). -/
  | thermClear (island : Nat)
  deriving DecidableEq, Repr

end Sys2Proof
end

