-- ==== Sys2Proof/Machine/Legal.lean ====
section
/-! DEFINITION. Sys2Proof/Machine/Legal.lean: what each instruction word reads and writes, and which words are
illegal whatever the state is (R26, R28, R29, R71, R75–R78, R81 and each instruction's own entry). One `Shape` a
mnemonic; the checks on it are shared. The checks that need the role's budget or other state stand in Ops.lean. -/

namespace Sys2Proof.Machine

/-- Bits [lo+n−1:lo] of a field as a number. -/
def fieldOf {w : Nat} (x : BitVec w) (lo n : Nat) : Nat := (x.toNat >>> lo) % 2 ^ n

/-- A register source: its specifier, how many 32-bit registers it takes when it is a v register (1, 2 for a
64-bit operand, 4 for .b128), whether an empty register traps instead of waiting, and the field it stands in
(1 A, 2 B, 3 C; R36 OPND). -/
structure Src where
  /-- Specifier (R28). -/
  code : BitVec 8
  /-- Registers taken. -/
  n : Nat
  /-- TRAPSEL bit. -/
  trap : Bool
  /-- Field, 1 to 3; 0 for a source that no TRAPSEL bit covers. -/
  fld : Nat
  deriving DecidableEq, Repr

/-- A register destination. -/
structure Dst where
  /-- Specifier (R28). -/
  code : BitVec 8
  /-- Registers taken. -/
  n : Nat
  deriving DecidableEq, Repr

/-- What an instruction word reads and writes, and the checks of its own entry on the word. -/
structure Shape where
  /-- The checks of the entry: types, modifiers, RES0 fields, codes. -/
  ok : Bool
  /-- Register sources with full/empty state, in the order A, B, C. -/
  srcs : List Src
  /-- Register destinations. -/
  dsts : List Dst
  /-- An s destination is permitted alongside per-lane sources (R29). -/
  mix : Bool
  deriving DecidableEq, Repr

/-! ### Specifier classes (R28, R29) -/

/-- Names a v register. -/
def isV (c : BitVec 8) : Bool := c.toNat ≤ 0xBF
/-- Names an s register. -/
def isS (c : BitVec 8) : Bool := 0xC0 ≤ c.toNat && c.toNat ≤ 0xEF
/-- Names a predicate. -/
def isP (c : BitVec 8) : Bool := 0xF0 ≤ c.toNat && c.toNat ≤ 0xF7
/-- Names zero. -/
def isZ (c : BitVec 8) : Bool := c.toNat == 0xF8
/-- A uniform source: codes 0xC0 to 0xF8 (R29). -/
def isUni (c : BitVec 8) : Bool := 0xC0 ≤ c.toNat && c.toNat ≤ 0xF8
/-- An s register or zero. -/
def isSZ (c : BitVec 8) : Bool := isS c || isZ c
/-- A pair (first register even) or an s register (R26, R92). -/
def isPairS (c : BitVec 8) : Bool := (isV c && c.toNat % 2 == 0) || isS c

/-- The register group of a v specifier is aligned and inside the file (R26, R75). -/
def groupOk (c : BitVec 8) (n : Nat) : Bool := !isV c || (c.toNat % n == 0 && c.toNat + n ≤ 192)

/-- A source specifier R28 does not refuse. -/
def Src.ok (x : Src) : Bool := x.code.toNat ≤ 0xF9 && (x.fld == 0 || groupOk x.code x.n)

/-- A destination specifier R28 does not refuse. DESIGN CHOICE (log 193): a predicate or zero is accepted for a 64-bit result of UNPK or
CVT. R110 says that such a result needs a pair or an s register, and lists no fault. -/
def Dst.ok (x : Dst) : Bool := x.code.toNat ≤ 0xF8 && groupOk x.code x.n

/-- The word is legal apart from the role's budget (R26, R28, R29, R71, R81). -/
def Shape.legal (x : Shape) : Bool :=
  x.ok && x.srcs.all Src.ok && x.dsts.all Dst.ok &&
    (x.mix || x.dsts.all (fun d => !isS d.code) || x.srcs.all (fun r => isUni r.code))

/-! ### Types (R44, R46, R77) -/

/-- 32-bit registers one operand of a type takes. -/
def tyRegs (t : BitVec 4) : Nat := if t == 2 || t == 3 || t == 11 then 2 else 1
/-- Elements of one operand of a type. -/
def tyElems (t : BitVec 4) : Nat :=
  match t.toNat with
  | 4 => 2 | 5 => 2 | 9 => 2 | 10 => 2 | 6 => 4 | 7 => 4 | 12 => 4 | 13 => 4 | _ => 1
/-- Packed types. -/
def tyPacked (t : BitVec 4) : Bool := tyElems t != 1
/-- TYPE is one of a list. -/
def tyIn (t : BitVec 4) (l : List Nat) : Bool := l.contains t.toNat
/-- TYPE 0 to 7, the integer types. -/
def tyInt (t : BitVec 4) : Bool := t.toNat ≤ 7
/-- TYPE 8, 9 or 10. -/
def tyFlt (t : BitVec 4) : Bool := tyIn t [8, 9, 10]

/-! ### MOD checks (R71, R78) -/

/-- The bits of MOD outside a mask are zero. -/
def modOnly {w : Nat} (m : BitVec w) (mask : Nat) : Bool := m.toNat &&& mask == m.toNat

/-- TRAPSEL names only fields that are read: the mask has bit 2 for A, 1 for B, 0 for C. -/
def trapOnly (t : BitVec 3) (mask : Nat) : Bool := t.toNat &&& mask == t.toNat

/-- Source in field A of format A. -/
def aSrcA (f : FmtA) (n : Nat) : Src := ⟨f.a, n, f.trap.getLsbD 2, 1⟩
/-- Source in field B of format A. -/
def aSrcB (f : FmtA) (n : Nat) : Src := ⟨f.b, n, f.trap.getLsbD 1, 2⟩
/-- Source in field C of format A. -/
def aSrcC (f : FmtA) (n : Nat) : Src := ⟨f.c, n, f.trap.getLsbD 0, 3⟩

/-- A, B and D at given widths, C unused. -/
def shapeAB (f : FmtA) (ok : Bool) (na nb nd : Nat) : Shape :=
  ⟨ok && f.c == 0 && trapOnly f.trap 6, [aSrcA f na, aSrcB f nb], [⟨f.d, nd⟩], false⟩
/-- A and D, B and C unused. -/
def shapeA1 (f : FmtA) (ok : Bool) (na nd : Nat) : Shape :=
  ⟨ok && f.b == 0 && f.c == 0 && trapOnly f.trap 4, [aSrcA f na], [⟨f.d, nd⟩], false⟩
/-- A, B, C and D. -/
def shapeABC (f : FmtA) (ok : Bool) (na nb nc nd : Nat) : Shape :=
  ⟨ok, [aSrcA f na, aSrcB f nb, aSrcC f nc], [⟨f.d, nd⟩], false⟩

/-- Elementwise integer instruction on A and B (R92, R93): the MOD bits it accepts. -/
def shapeInt2 (f : FmtA) (mask : Nat) : Shape :=
  shapeAB f (tyInt f.ty && modOnly f.mod mask) (tyRegs f.ty) (tyRegs f.ty) (tyRegs f.ty)

/-- IADDC and ISUBB (R94): C names a predicate or zero and has no full/empty state. -/
def shapeCarry (f : FmtA) : Shape :=
  ⟨tyIn f.ty [1, 3] && modOnly f.mod 0x380 && (isP f.c || isZ f.c),
    [aSrcA f (tyRegs f.ty), aSrcB f (tyRegs f.ty)], [⟨f.d, tyRegs f.ty⟩], false⟩

/-- IABS and INEG (R93). -/
def shapeIntS1 (f : FmtA) : Shape :=
  shapeA1 f (tyIn f.ty [0, 2, 4, 6] && modOnly f.mod 8) (tyRegs f.ty) (tyRegs f.ty)

/-- ICMP (R98). -/
def shapeIcmp (f : FmtA) : Shape :=
  shapeAB f (tyInt f.ty && modOnly f.mod 0x380 && fieldOf f.mod 7 3 ≤ 5 && !(tyPacked f.ty && isP f.d))
    (tyRegs f.ty) (tyRegs f.ty) (tyRegs f.ty)

/-- ISEL (R99). -/
def shapeIsel (f : FmtA) : Shape :=
  ⟨tyInt f.ty && f.mod == 0 && isP f.c, [aSrcA f (tyRegs f.ty), aSrcB f (tyRegs f.ty)], [⟨f.d, tyRegs f.ty⟩], false⟩

/-- Format I arithmetic (R106): A always waits. -/
def shapeImm (f : FmtI) : Shape :=
  ⟨tyInt f.ty, [⟨f.a, tyRegs f.ty, false, 1⟩], [⟨f.d, tyRegs f.ty⟩], false⟩

/-- ICMPI (R106). -/
def shapeIcmpi (f : FmtI) : Shape :=
  ⟨tyIn f.ty [0, 1, 2, 3] && fieldOf f.d 6 2 == 0 && fieldOf f.d 3 3 ≤ 5,
    [⟨f.a, tyRegs f.ty, false, 1⟩], [], false⟩

/-- Elementwise floating instruction that rounds (R110, R111), on A and B. -/
def shapeFlt2 (f : FmtA) : Shape :=
  shapeAB f (tyFlt f.ty && f.mod.toNat ≤ 3) 1 1 1
/-- Elementwise floating instruction on A and B that does not round (R112). -/
def shapeFltMin (f : FmtA) : Shape := shapeAB f (tyFlt f.ty && f.mod == 0) 1 1 1
/-- Elementwise floating instruction on A that rounds. -/
def shapeFlt1 (f : FmtA) : Shape := shapeA1 f (tyFlt f.ty && f.mod.toNat ≤ 3) 1 1
/-- FCMP (R113). -/
def shapeFcmp (f : FmtA) : Shape :=
  shapeAB f (tyFlt f.ty && modOnly f.mod 0x380 && !(tyPacked f.ty && isP f.d)) 1 1 1
/-- FRCP, FRSQ, FSQRT (R115). -/
def shapeRoot (f : FmtA) : Shape := shapeA1 f (f.ty == 8 && f.mod.toNat ≤ 3) 1 1
/-- FEXP2 to FSIGM (R116). -/
def shapeTrans (f : FmtA) : Shape := shapeA1 f (f.ty == 8 && f.mod == 0) 1 1

/-- SEL is below the ratio of the element counts (R119). -/
def selOk (f : FmtA) (src : BitVec 4) : Bool :=
  fieldOf f.mod 11 2 < max (tyElems f.ty) (tyElems src) / min (tyElems f.ty) (tyElems src)

/-- CVT (R119). -/
def shapeCvt (f : FmtA) : Shape :=
  let src : BitVec 4 := BitVec.ofNat 4 (fieldOf f.mod 7 4)
  shapeA1 f (f.ty.toNat ≤ 13 && src.toNat ≤ 13 && src != f.ty && selOk f src && fieldOf f.mod 0 3 ≤ 3 &&
    fieldOf f.mod 4 3 == 0) (tyRegs src) (tyRegs f.ty)
/-- CVTSR (R120). -/
def shapeCvtsr (f : FmtA) : Shape :=
  shapeA1 f (tyIn f.ty [9, 10, 12, 13] && fieldOf f.mod 7 4 == 8 && selOk f 8 && fieldOf f.mod 0 3 == 4 &&
    fieldOf f.mod 4 3 == 0) 1 1
/-- The element position of PACK and UNPK (R121, R122): 0 for x2 types, 0 or 1 for x4 types. -/
def packSelOk (f : FmtA) : Bool := 2 * fieldOf f.mod 11 2 + 1 < tyElems f.ty
/-- PACK (R121). -/
def shapePack (f : FmtA) : Shape :=
  let flt := tyIn f.ty [9, 10, 12, 13]
  let ok := tyIn f.ty [4, 5, 6, 7, 9, 10, 12, 13] && packSelOk f && fieldOf f.mod 4 3 == 0 &&
    (if flt then fieldOf f.mod 7 4 == 8 && fieldOf f.mod 0 3 ≤ 3 else fieldOf f.mod 7 4 ≤ 1 && fieldOf f.mod 0 3 == 0)
  if tyElems f.ty == 4 then shapeABC f ok 1 1 1 1 else shapeAB f ok 1 1 1
/-- UNPK (R122). -/
def shapeUnpk (f : FmtA) : Shape :=
  shapeA1 f (tyIn f.ty [4, 5, 6, 7, 9, 10, 12, 13] && modOnly f.mod 0x1800 && packSelOk f) 1 2
/-- QMX (R123, R125). -/
def shapeQmx (f : FmtA) : Shape :=
  shapeA1 f (f.ty == 14 && modOnly f.mod 0x77 && fieldOf f.mod 4 3 ≤ 4 && fieldOf f.mod 0 3 ≤ 4 && !isS f.d) 1 1
/-- DQMX (R124). -/
def shapeDqmx (f : FmtA) : Shape :=
  shapeA1 f (f.ty == 14 && modOnly f.mod 0x77 && fieldOf f.mod 4 3 ≤ 4 && fieldOf f.mod 0 3 ≤ 3) 1 1

/-! ### Movement and cross-lane (R128–R136) -/

/-- MOV (R129). -/
def shapeMov (f : FmtA) : Shape := shapeA1 f (tyInt f.ty && f.mod == 0) (tyRegs f.ty) (tyRegs f.ty)

/-- The special registers held 64 bits wide (R35). -/
def special64 (i : Nat) : Bool := [0x03, 0x04, 0x09, 0x0A, 0x0B, 0x0C, 0x0D, 0x0E, 0x0F].contains i

/-- MOVS (R130): the pairings of D and TYPE. -/
def shapeMovs (f : FmtA) : Shape :=
  let i := f.b.toNat
  let lane := i ≤ 1
  let ok := i ≤ 0x12 && tyIn f.ty [1, 3] && f.mod == 0 && f.a == 0 && f.c == 0 && f.trap == 0 &&
    (isV f.d || isS f.d) && !(lane && isS f.d) && (!special64 i || f.ty == 3)
  ⟨ok, [], [⟨f.d, if f.ty == 3 then 2 else 1⟩], false⟩
/-- MOVX (R131). -/
def shapeMovx (f : FmtA) : Shape :=
  ⟨f.d.toNat ≤ 0x12 && isUni f.a && f.b == 0 && f.c == 0 && f.ty == 0 && f.mod == 0 && trapOnly f.trap 4,
    [aSrcA f 2], [], false⟩
/-- SHFL (R132). -/
def shapeShfl (f : FmtA) : Shape :=
  shapeAB f (tyInt f.ty && modOnly f.mod 0x1F80 && fieldOf f.mod 7 3 ≤ 5 && fieldOf f.mod 10 3 ≤ 5 &&
    !isS f.d && !isP f.d && (fieldOf f.mod 7 3 != 4 || isUni f.b)) (tyRegs f.ty) 1 (tyRegs f.ty)
/-- VOTE (R133). -/
def shapeVote (f : FmtA) : Shape :=
  { shapeA1 f (f.ty == 0 && modOnly f.mod 0x380 && fieldOf f.mod 7 3 ≤ 6 && !(isP f.d && 3 ≤ fieldOf f.mod 7 3)) 1 1
    with mix := true }
/-- MATCH (R134). -/
def shapeMatch (f : FmtA) : Shape :=
  { shapeA1 f (tyIn f.ty [1, 3] && modOnly f.mod 0x180 &&
      (isV f.d || (fieldOf f.mod 7 2 == 1 && (isS f.d || isP f.d)))) (tyRegs f.ty) 1 with mix := true }
/-- FOLD (R135). -/
def shapeFold (f : FmtA) : Shape :=
  let op := fieldOf f.mod 7 3
  let sum := op == 0 || op == 6 || op == 7
  { shapeA1 f (tyIn f.ty [0, 1, 2, 3, 8] && fieldOf f.mod 10 3 ≤ 5 && fieldOf f.mod 4 3 == 0 && !isP f.d &&
      !(f.ty == 8 && 3 ≤ op && op ≤ 5) && (!f.mod.getLsbD 3 || (f.ty != 8 && sum)) &&
      (fieldOf f.mod 0 3 == 0 || (f.ty == 8 && sum && fieldOf f.mod 0 3 ≤ 3)) &&
      !(isS f.d && (fieldOf f.mod 10 3 != 0 || 6 ≤ op))) (tyRegs f.ty) (tyRegs f.ty) with mix := true }
/-- PLOP (R136). -/
def shapePlop (f : FmtA) : Shape :=
  ⟨isP f.d && (isP f.a || isZ f.a) && (isP f.b || isZ f.b) && f.c == 0 && f.ty == 0 && f.trap == 0 && modOnly f.mod 0x780,
    [], [], false⟩

/-! ### Control (R137) -/

/-- BR and BRD. -/
def shapeBr (f : FmtJ) : Shape := ⟨f.l == 0 && f.a == 0 && f.mod == 0, [], [], false⟩
/-- BRX (R143), CALLX and RET: a target pointer in A, a pair or an s register. -/
def shapeTarget (f : FmtA) (mask : Nat) (link : Bool) : Shape :=
  ⟨isPairS f.a && f.b == 0 && f.c == 0 && f.ty == 0 && modOnly f.mod mask && trapOnly f.trap 4 &&
    (if link then isS f.d else f.d == 0), [aSrcA f 2], if link then [⟨f.d, 2⟩] else [], true⟩
/-- CALL. -/
def shapeCall (f : FmtJ) : Shape := ⟨isS f.l && f.a == 0 && f.mod == 0, [], [⟨f.l, 2⟩], false⟩
/-- OFF32 read as a signed word offset. -/
def offLoopOk (f : FmtJ) : Bool := 3 ≤ f.off.toInt
/-- LOOP (R145). -/
def shapeLoop (f : FmtJ) : Shape :=
  ⟨f.l == 0 && isS f.a && f.mod == 0 && offLoopOk f, [⟨f.a, 1, false, 1⟩], [], false⟩
/-- LOOPI (R145). -/
def shapeLoopi (f : FmtJ) : Shape := ⟨f.a == 0 && f.mod == 0 && offLoopOk f, [], [], false⟩
/-- LBRK (R148). -/
def shapeLbrk (f : FmtJ) : Shape :=
  ⟨f.a == 0 && f.mod == 0 && f.off == 0 && 1 ≤ f.l.toNat && f.l.toNat ≤ 4, [], [], false⟩
/-- The v registers from `c` on, each a waiting source. -/
def payload (c n : Nat) : List Src := (List.range n).map (fun k => ⟨BitVec.ofNat 8 (c + k), 1, false, 1⟩)
/-- SPAWN (R149). -/
def shapeSpawn (f : FmtJ) : Shape :=
  let n := fieldOf f.l 0 4
  ⟨fieldOf f.l 4 4 == 0 && n ≤ 8 && f.mod == 0 && (if n == 0 then f.a == 0 else f.a.toNat + n ≤ 192),
    payload f.a.toNat n, [], false⟩
/-- WINNOW (R150). -/
def shapeWinnow (f : FmtJ) : Shape :=
  let n := fieldOf f.l 0 4
  ⟨fieldOf f.l 4 4 == 0 && n ≤ 8 && f.mod == 0 && f.a.toNat + n + 1 ≤ 192, payload f.a.toNat (n + 1), [], false⟩
/-- Format A with every field but GUARD zero (EXIT, YIELD, GBAR). -/
def shapeBare (f : FmtA) (mask : Nat) : Shape :=
  ⟨f.d == 0 && f.a == 0 && f.b == 0 && f.c == 0 && f.ty == 0 && f.trap == 0 && modOnly f.mod mask, [], [], false⟩

/-! ### Memory (R75, R157–R175) -/

/-- Bytes of an access (R75). -/
def sizeBytes (s : BitVec 4) : Nat :=
  match s.toNat with
  | 0 => 1 | 1 => 1 | 2 => 2 | 3 => 2 | 4 => 4 | 5 => 8 | _ => 16
/-- v registers of an access (R75). -/
def sizeRegs (s : BitVec 4) : Nat := match s.toNat with | 5 => 2 | 6 => 4 | _ => 1
/-- ORDER and SCOPE may stand together (R75, R158, R164). -/
def orderScopeOk (order scope : BitVec 2) : Bool :=
  (order != 0 || scope == 0) && (order != 3 || 2 ≤ scope.toNat)

/-- Address operand: a pair or s register, or for scratchpad a v or s register (R158). -/
def addrOk (scratch : Bool) (c : BitVec 8) : Bool := if scratch then isV c || isS c else isPairS c

/-- Address source. -/
def mSrcA (f : FmtM) (n : Nat) : Src := ⟨f.a, n, f.trap.getLsbD 2, 1⟩
/-- Data source. -/
def mSrcB (f : FmtM) (n : Nat) : Src := ⟨f.b, n, f.trap.getLsbD 1, 2⟩

/-- Loads (R157, R158). -/
def shapeLoad (f : FmtM) (scratch : Bool) : Shape :=
  ⟨f.size.toNat ≤ 6 && f.mod == 0 && f.b == 0 && trapOnly f.trap 4 && orderScopeOk f.order f.scope &&
      addrOk scratch f.a && (isV f.d || isZ f.d || (isS f.d && f.size.toNat ≤ 5)),
    [mSrcA f (if scratch then 1 else 2)], [⟨f.d, sizeRegs f.size⟩], false⟩
/-- Stores (R157, R158). -/
def shapeStore (f : FmtM) (scratch : Bool) : Shape :=
  ⟨[0, 2, 4, 5, 6].contains f.size.toNat && f.mod == 0 && f.d == 0 && trapOnly f.trap 6 && orderScopeOk f.order f.scope &&
      addrOk scratch f.a && (f.size.toNat != 5 || isV f.b || isS f.b) && (f.size.toNat != 6 || isV f.b),
    [mSrcA f (if scratch then 1 else 2), mSrcB f (sizeRegs f.size)], [], false⟩
/-- CCTL (R168). -/
def shapeCctl (f : FmtM) : Shape :=
  let all := f.size == 2 || f.size == 3
  ⟨f.size.toNat ≤ 5 && f.d == 0 && f.b == 0 && f.scope == 0 && f.order == 0 && f.mod == 0 &&
      (if all then f.a == 0 && f.off == 0 && f.trap == 0 else isPairS f.a && trapOnly f.trap 4),
    if all then [] else [mSrcA f 2], [], false⟩
/-- Width in bytes of an atomic (R164). -/
def atomBytes (f : FmtM) : Nat := if fieldOf f.mod 0 2 == 1 then 8 else 4
/-- v registers of an atomic's operand B (R165). -/
def atomRegsB (f : FmtM) : Nat :=
  if f.size == 1 then (if atomBytes f == 8 then 4 else 2) else (if atomBytes f == 8 then 2 else 1)
/-- Atomics (R164, R165). -/
def shapeAtom (f : FmtM) (scratch tensor : Bool) : Shape :=
  let cas := f.size == 1
  let nb := atomRegsB f
  ⟨f.size.toNat ≤ 12 && f.mod.toNat ≤ 1 && f.order != 0 && orderScopeOk f.order f.scope && trapOnly f.trap 6 &&
      (!tensor || (f.order == 1 && 2 ≤ f.scope.toNat)) && !((f.size == 10 || f.size == 11) && f.mod != 0) &&
      addrOk scratch f.a && (isV f.d || isS f.d || isZ f.d) &&
      (!cas || isV f.b || (isS f.b && (atomBytes f == 4 || f.b.toNat ≤ 0xEE))),
    [mSrcA f (if scratch then 1 else 2), mSrcB f nb] ++
      (if cas && isS f.b && atomBytes f == 8 then [⟨f.b + 1, 2, f.trap.getLsbD 1, 2⟩] else []),
    [⟨f.d, if atomBytes f == 8 then 2 else 1⟩], false⟩
/-- FENCE, FENCESC and TFENCE (R169–R171): the least scope accepted, and whether SCOPE is used. -/
def shapeFence (f : FmtM) (useScope : Bool) (least : Nat) : Shape :=
  ⟨f.d == 0 && f.a == 0 && f.b == 0 && f.off == 0 && f.trap == 0 && f.size == 0 && f.order == 0 && f.mod == 0 &&
      (if useScope then least ≤ f.scope.toNat else f.scope == 0), [], [], false⟩
/-- WAITA (R172). -/
def shapeWaita (f : FmtM) : Shape :=
  ⟨isS f.a && isSZ f.b && isSZ f.d && f.off == 0 && (f.size == 4 || f.size == 5) && (f.order == 1 || f.order == 2) &&
      f.mod.toNat ≤ 3 && trapOnly f.trap 6, [mSrcA f 2, mSrcB f 2], [⟨f.d, 2⟩], false⟩
/-- SLINIT (R174). -/
def shapeSlinit (f : FmtM) : Shape :=
  let clr := f.mod == 1
  ⟨f.mod.toNat ≤ 1 && f.d == 0 && f.size == 0 && f.scope == 0 && f.order == 0 && isPairS f.a &&
      (if clr then f.b == 0 && trapOnly f.trap 4 else (isPairS f.b || isZ f.b) && trapOnly f.trap 6),
    if clr then [mSrcA f 2] else [mSrcA f 2, mSrcB f 2], [], false⟩

/-! ### Barriers, queues, convergence, accumulators (R179, R185) -/

/-- Uniform A and B where the form reads them. -/
def shapeUni (f : FmtA) (ok readA readB : Bool) (mask : Nat) (dsts : List Dst) : Shape :=
  ⟨ok && f.c == 0 && f.ty == 0 && modOnly f.mod mask &&
      (if readA then isUni f.a else f.a == 0) && (if readB then isUni f.b else f.b == 0) &&
      trapOnly f.trap ((if readA then 4 else 0) + (if readB then 2 else 0)),
    (if readA then [aSrcA f 2] else []) ++ (if readB then [aSrcB f 2] else []), dsts, false⟩

/-! ### Engines (R76, R195–R231) -/

/-- The n descriptor registers from C on, one TRAPSEL bit for all (R76). -/
def descSrcs (f : FmtA) (n : Nat) : List Src :=
  (List.range n).map (fun k => ⟨BitVec.ofNat 8 (f.c.toNat + k), 2, f.trap.getLsbD 0, 3⟩)
/-- C names s(c) and s(c+n−1) exists (R76). -/
def descOk (f : FmtA) (n : Nat) : Bool := isS f.c && f.c.toNat + n ≤ 0xF0
/-- A tile field (R195). -/
def tileOk (c : BitVec 8) : Bool := c.toNat ≤ 31
/-- Format E: uniform A and B where read, a descriptor of n registers. -/
def shapeEng (f : FmtA) (ok readA readB : Bool) (n : Nat) (mask : Nat) (dsts : List Dst) : Shape :=
  ⟨ok && descOk f n && modOnly f.mod mask &&
      (if readA then isUni f.a else f.a == 0) && (if readB then isUni f.b else f.b == 0) &&
      trapOnly f.trap ((if readA then 4 else 0) + (if readB then 2 else 0) + 1),
    (if readA then [aSrcA f 2] else []) ++ (if readB then [aSrcB f 2] else []) ++ descSrcs f n, dsts, false⟩

/-- MMA and MMASP (R202). -/
def shapeMma (f : FmtA) (sparse : Bool) : Shape :=
  shapeEng f (tileOk f.d && tyIn f.ty [6, 7, 9, 10, 12, 13, 14] && (!f.mod.getLsbD 3 || tyIn f.ty [6, 7]) &&
    (if f.ty == 14 then fieldOf f.mod 4 3 ≤ 4 else fieldOf f.mod 4 3 == 0)) sparse false 2 0xFF8 []
/-- TCPY and TCPO (R214). DESIGN CHOICE (log 191): MOD[10:7], which names cvN with .cv, is accepted with any value without it, here and
for WCPY and DRAIN; the spec does not say whether the unused field is RES0. -/
def shapeTile (f : FmtA) : Shape :=
  shapeEng f (f.ty == 0 && isSZ f.d && (!f.mod.getLsbD 11 || isZ f.d)) true true 4 0x1F80 [⟨f.d, 2⟩]
/-- GCPY and SCPY (R218). -/
def shapeGather (f : FmtA) (mask : Nat) : Shape :=
  ⟨f.ty == 0 && isSZ f.d && isPairS f.a && isV f.b && descOk f 1 && modOnly f.mod mask && fieldOf f.mod 7 2 ≤ 2,
    [aSrcA f 2, aSrcB f 1] ++ descSrcs f 1, [⟨f.d, 2⟩], true⟩
/-- WCPY and DRAIN (R219, R220). DESIGN CHOICE (log 191): as for TCPY. -/
def shapeLinear (f : FmtA) (mask : Nat) : Shape :=
  shapeEng f (f.ty == 0 && isSZ f.d) true true 2 mask [⟨f.d, 2⟩]
/-- TRAP and BRKPT (R227). -/
def shapeTrap (f : FmtI) : Shape := ⟨f.d == 0 && f.a == 0 && f.ty == 0, [], [], false⟩

/-- The shape of each instruction word; the steps that no word encodes have none. -/
def shapeOf : Instr → Option Shape
  | .nop => some ⟨true, [], [], false⟩
  | .iadd f => some (shapeInt2 f 8)
  | .iaddc f => some (shapeCarry f)
  | .iadds f => some (shapeInt2 f 0x388)
  | .isub f => some (shapeInt2 f 8)
  | .isubb f => some (shapeCarry f)
  | .isubs f => some (shapeInt2 f 0x388)
  | .imul f => some (shapeInt2 f 8)
  | .imulh f => some (shapeInt2 f 0)
  | .imad f => some (shapeABC f (tyInt f.ty && modOnly f.mod 8) (tyRegs f.ty) (tyRegs f.ty) (tyRegs f.ty) (tyRegs f.ty))
  | .imadw f => some (shapeABC f (tyIn f.ty [0, 1, 4, 5, 6, 7] && modOnly f.mod 8) 1 1 2 2)
  | .idot4 f => some (shapeABC f (tyIn f.ty [6, 7] && modOnly f.mod 0x88) 1 1 1 1)
  | .idot2 f => some (shapeABC f (tyIn f.ty [4, 5] && modOnly f.mod 0x88) 1 1 1 1)
  | .iabs f => some (shapeIntS1 f)
  | .ineg f => some (shapeIntS1 f)
  | .imin f => some (shapeInt2 f 0)
  | .imax f => some (shapeInt2 f 0)
  | .iavg f => some (shapeInt2 f 0x80)
  | .icmp f => some (shapeIcmp f)
  | .isel f => some (shapeIsel f)
  | .ipopc f => some (shapeA1 f (tyInt f.ty && f.mod == 0) (tyRegs f.ty) 1)
  | .iclz f => some (shapeA1 f (tyInt f.ty && f.mod == 0) (tyRegs f.ty) 1)
  | .ibrev f => some (shapeA1 f (tyIn f.ty [1, 3] && f.mod == 0) (tyRegs f.ty) (tyRegs f.ty))
  | .ibfx f => some (shapeAB f (tyIn f.ty [0, 1, 2, 3] && f.mod == 0) (tyRegs f.ty) 1 (tyRegs f.ty))
  | .ibfi f => some (shapeABC f (tyIn f.ty [1, 3] && f.mod == 0) (tyRegs f.ty) (tyRegs f.ty) 1 (tyRegs f.ty))
  | .bitAnd f => some (shapeInt2 f 0)
  | .bitOr f => some (shapeInt2 f 0)
  | .bitXor f => some (shapeInt2 f 0)
  | .bitNot f => some (shapeA1 f (tyInt f.ty && f.mod == 0) (tyRegs f.ty) (tyRegs f.ty))
  | .andn f => some (shapeInt2 f 0)
  | .shl f => some (shapeInt2 f 8)
  | .shr f => some (shapeInt2 f 0)
  | .sra f => some (shapeInt2 f 0)
  | .rotl f => some (shapeInt2 f 0)
  | .fshl f => some (shapeABC f (tyIn f.ty [1, 3] && f.mod == 0) (tyRegs f.ty) (tyRegs f.ty) 1 (tyRegs f.ty))
  | .perm f => some (shapeABC f (f.ty == 1 && f.mod == 0) 1 1 1 1)
  | .lea f => some (shapeAB f (f.ty == 3 && modOnly f.mod 0x380) 2 1 2)
  | .iaddi f => some (shapeImm f)
  | .imuli f => some (shapeImm f)
  | .andi f => some (shapeImm f)
  | .ori f => some (shapeImm f)
  | .xori f => some (shapeImm f)
  | .shli f => some (shapeImm f)
  | .shri f => some (shapeImm f)
  | .srai f => some (shapeImm f)
  | .icmpi f => some (shapeIcmpi f)
  | .movi f => some ⟨tyInt f.ty && f.a == 0, [], [⟨f.d, tyRegs f.ty⟩], false⟩
  | .fadd f => some (shapeFlt2 f)
  | .fsub f => some (shapeFlt2 f)
  | .fmul f => some (shapeFlt2 f)
  | .ffma f => some (shapeABC f (tyFlt f.ty && f.mod.toNat ≤ 3) 1 1 1 1)
  | .fmin f => some (shapeFltMin f)
  | .fmax f => some (shapeFltMin f)
  | .fminm f => some (shapeFltMin f)
  | .fmaxm f => some (shapeFltMin f)
  | .fcmp f => some (shapeFcmp f)
  | .fclass f => some (shapeA1 f (tyFlt f.ty && f.mod == 0) 1 1)
  | .frcp f => some (shapeRoot f)
  | .frsq f => some (shapeRoot f)
  | .fsqrt f => some (shapeRoot f)
  | .fdiv f => some (shapeAB f (f.ty == 8 && f.mod.toNat ≤ 3) 1 1 1)
  | .fexp2 f => some (shapeTrans f)
  | .flog2 f => some (shapeTrans f)
  | .fsin f => some (shapeTrans f)
  | .fcos f => some (shapeTrans f)
  | .ftanh f => some (shapeTrans f)
  | .fsigm f => some (shapeTrans f)
  | .frnd f => some (shapeFlt1 f)
  | .fscale f => some (shapeFlt2 f)
  | .ffrac f => some (shapeFlt1 f)
  | .fdot2 f => some (shapeABC f (tyIn f.ty [9, 10] && f.mod.toNat ≤ 3) 1 1 1 1)
  | .cvt f => some (shapeCvt f)
  | .cvtsr f => some (shapeCvtsr f)
  | .pack f => some (shapePack f)
  | .unpk f => some (shapeUnpk f)
  | .qmx f => some (shapeQmx f)
  | .dqmx f => some (shapeDqmx f)
  | .mov f => some (shapeMov f)
  | .movs f => some (shapeMovs f)
  | .movx f => some (shapeMovx f)
  | .shfl f => some (shapeShfl f)
  | .vote f => some (shapeVote f)
  | .matchLanes f => some (shapeMatch f)
  | .fold f => some (shapeFold f)
  | .plop f => some (shapePlop f)
  | .br f => some (shapeBr f)
  | .brd f => some (shapeBr f)
  | .brx f => some (shapeTarget f 0x80 false)
  | .call f => some (shapeCall f)
  | .callx f => some (shapeTarget f 0 true)
  | .ret f => some (shapeTarget f 0 false)
  | .loop f => some (shapeLoop f)
  | .loopi f => some (shapeLoopi f)
  | .lbrk f => some (shapeLbrk f)
  | .spawn f => some (shapeSpawn f)
  | .winnow f => some (shapeWinnow f)
  | .exit f => some (shapeBare f 0)
  | .yield f => some (shapeBare f 0)
  | .ldc f => some (shapeLoad f false)
  | .stc f => some (shapeStore f false)
  | .lds f => some (shapeLoad f true)
  | .sts f => some (shapeStore f true)
  | .ldm f => some (shapeLoad f false)
  | .stm f => some (shapeStore f false)
  | .ldw f => some (shapeLoad f false)
  | .stw f => some (shapeStore f false)
  | .cctl f => some (shapeCctl f)
  | .atc f => some (shapeAtom f false false)
  | .ats f => some (shapeAtom f true false)
  | .att f => some (shapeAtom f false true)
  | .fence f => some (shapeFence f true 0)
  | .fencesc f => some (shapeFence f true 2)
  | .tfence f => some (shapeFence f false 0)
  | .waita f => some (shapeWaita f)
  | .slinit f => some (shapeSlinit f)
  | .binit f => some (shapeUni f (f.d == 0) true (!f.mod.getLsbD 7) 0x80 [])
  | .bexp f => some (shapeUni f (f.d == 0) true true 0 [])
  | .barv f => some (shapeUni f (isP f.d || isSZ f.d) true true 0 [⟨f.d, 2⟩])
  | .bwait f => some (shapeUni f (f.d == 0) true true 0 [])
  | .btest f => some (shapeUni f (isP f.d || isS f.d) true true 0 [⟨f.d, 2⟩])
  | .tbar f => some (shapeUni f (f.d == 0 && f.guard == 0) false false 0x780 [])
  | .gbar f => some (shapeBare f 0)
  | .qinit f => some (shapeUni f (f.d == 0) true true 0x780 [])
  | .qpush f => some (shapeUni f (f.d == 0) true false 0x780 [])
  | .qpop f => some (shapeUni f (isS f.d) false false 0x780 [⟨f.d, 2⟩])
  | .qallow f => some (shapeUni f (f.d == 0) true false 0x1F80 [])
  | .cvinit f => some (shapeUni f (f.d == 0) true false 0x780 [])
  | .acalloc f => some (shapeUni f (isSZ f.d) true false 0 [⟨f.d, 2⟩])
  | .acfree f => some (shapeUni f (f.d == 0) true false 0 [])
  | .mma f => some (shapeMma f false)
  | .mmasp f => some (shapeMma f true)
  | .mmv f => some (shapeEng f (f.ty == 10 && (if f.mod.getLsbD 11 then f.d == 0xF8 else tileOk f.d)) false false 3 0xF80 [])
  | .mldt f => some (shapeEng f (tileOk f.d && f.ty == 0) false false 2 0x1F80 [])
  | .mzero f => some ⟨tileOk f.d && f.a == 0 && f.b == 0 && f.c == 0 && f.ty == 0 && f.trap == 0 && modOnly f.mod 0x780, [], [], false⟩
  | .mepi f => some (shapeEng f (tileOk f.d && tyIn f.ty [0, 6, 8, 9, 10, 12, 13] && fieldOf f.mod 0 3 ≤ 3) false false 2 0xF8F [])
  | .tcpy f => some (shapeTile f)
  | .tcpo f => some (shapeTile f)
  | .gcpy f => some (shapeGather f 0x1180)
  | .scpy f => some (shapeGather f 0x180)
  | .wcpy f => some (shapeLinear f 0x1F80)
  | .drain f => some (shapeLinear f 0xF80)
  | .cstep f => some (shapeEng f (f.d == 0 && fieldOf f.mod 7 3 ≤ 3 &&
      (if f.mod.getLsbD 10 then tyIn f.ty [8, 10] else f.ty == 0)) true false 5 0xF80 [])
  | .cabort f => some (shapeUni f (f.d == 0) (!f.mod.getLsbD 7) false 0x80 [])
  | .npost f => some (shapeEng f (f.d == 0 && f.ty == 0 && fieldOf f.mod 7 3 ≤ 3) true true 4 0x380 [])
  | .launch f => some (shapeUni f (isSZ f.d) true true 0 [⟨f.d, 2⟩])
  | .trap f => some (shapeTrap f)
  | .tret f => some (shapeBare f 0x80)
  | .brkpt f => some (shapeTrap f)
  | .pkeyw f => some (shapeUni f (f.d == 0) true false 0 [])
  | .capsub f => some (shapeUni f (isS f.d) true true 0x380 [⟨f.d, 2⟩])
  | _ => none

end Sys2Proof.Machine
end

