-- ==== Sys2Proof/Machine/Bits.lean ====
section
/-! DEFINITION. Sys2Proof/Machine/Bits.lean: bits, bytes and integer elements of a lane value (R6, R44, R45, R73, R92).
A lane value is carried as 64 bits; a 32-bit value fills the low half. -/

namespace Sys2Proof.Machine

/-! ### Numbers and bits -/

/-- ⌊log₂ n⌋, and 0 for n = 0. -/
def log2 (n : Nat) : Nat := Nat.log2 n

/-- n reduced to w bits and read as two's complement. -/
def signedOf (w n : Nat) : Int :=
  let m := n % 2 ^ w
  if 2 * m < 2 ^ w then (m : Int) else (m : Int) - (2 : Int) ^ w

/-- The low w bits of an integer (two's complement). -/
def lowBits (w : Nat) (e : Int) : Nat := (e % (2 : Int) ^ w).toNat

/-- ⌈a ÷ b⌉. -/
def ceilDiv (a b : Nat) : Nat := (a + b - 1) / b

/-- Little-endian value of bytes, the first at the lowest address (R6). -/
def leNat : List Byte → Nat
  | [] => 0
  | b :: bs => b.toNat + 256 * leNat bs

/-- The n low bytes of a number, little-endian (R6). -/
def leBytes (n x : Nat) : List Byte := (List.range n).map (fun i => BitVec.ofNat 8 (x >>> (8 * i)))

/-- Sum of a list of integers. -/
def sumInt (l : List Int) : Int := l.foldl (· + ·) 0

/-- Lanes of a mask, ascending (R6). -/
def lanesOf (m : LaneMask) : List Nat := (List.range 32).filter (fun i => m.getLsbD i)

/-- The mask of one lane. -/
def laneBit (i : Nat) : LaneMask := (1 : LaneMask) <<< i

/-- The mask of a set of lanes. -/
def maskOf (ls : List Nat) : LaneMask := ls.foldl (fun m i => m ||| laneBit i) 0

/-- Number of lanes of a mask. -/
def laneCount (m : LaneMask) : Nat := (lanesOf m).length

/-- The lowest lane of a mask; 0 when empty. -/
def lowestLane (m : LaneMask) : Nat := (lanesOf m).headD 0

/-! ### Elements (R44) -/

/-- Width of an element of a type. -/
def elemWidth (t : BitVec 4) : Nat :=
  match t.toNat with
  | 2 => 64 | 3 => 64 | 11 => 64 | 4 => 16 | 5 => 16 | 9 => 16 | 10 => 16 | 6 => 8 | 7 => 8 | 12 => 8 | 13 => 8 | _ => 32

/-- Signed integer types (R92). -/
def tySigned (t : BitVec 4) : Bool := t == 0 || t == 2 || t == 4 || t == 6

/-- Element i of width w, as bits. -/
def elemBits (x : Word64) (w i : Nat) : Nat := (x.toNat >>> (w * i)) % 2 ^ w

/-- Element i of width w, as an integer. -/
def elemInt (x : Word64) (w i : Nat) (sgn : Bool) : Int :=
  if sgn then signedOf w (elemBits x w i) else (elemBits x w i : Int)

/-- Elem(x, i, t) of R92. -/
def elem (x : Word64) (i : Nat) (t : BitVec 4) : Int := elemInt x (elemWidth t) i (tySigned t)

/-- Elements of width w, element 0 lowest. -/
def packElems (w : Nat) : List Nat → Nat
  | [] => 0
  | x :: xs => x % 2 ^ w + 2 ^ w * packElems w xs

/-- The range of a w-bit integer. -/
def intLow (w : Nat) (sgn : Bool) : Int := if sgn then -((2 : Int) ^ (w - 1)) else 0
/-- The greatest w-bit integer. -/
def intHigh (w : Nat) (sgn : Bool) : Int := if sgn then (2 : Int) ^ (w - 1) - 1 else (2 : Int) ^ w - 1

/-- e lies in the element range. -/
def inRange (w : Nat) (sgn : Bool) (e : Int) : Bool := intLow w sgn ≤ e && e ≤ intHigh w sgn

/-- Clamp to the element range. -/
def clampInt (w : Nat) (sgn : Bool) (e : Int) : Int :=
  if e < intLow w sgn then intLow w sgn else if intHigh w sgn < e then intHigh w sgn else e

/-- FitInteger of R45: the low w bits, or the clamped value's. -/
def fitBits (w : Nat) (sgn sat : Bool) (e : Int) : Nat := lowBits w (if sat then clampInt w sgn e else e)

/-- Elementwise integer operation (R92) on up to three sources. -/
def elementwise (t : BitVec 4) (sat : Bool) (f : Int → Int → Int → Int) (a b c : Word64) : Word64 :=
  BitVec.ofNat 64 (packElems (elemWidth t) ((List.range (tyElems t)).map (fun i =>
    fitBits (elemWidth t) (tySigned t) sat (f (elem a i t) (elem b i t) (elem c i t)))))

/-- Elementwise operation on the raw bits of elements (R103). -/
def bitwiseElems (t : BitVec 4) (f : Nat → Nat → Nat) (a b : Word64) : Word64 :=
  BitVec.ofNat 64 (packElems (elemWidth t) ((List.range (tyElems t)).map (fun i =>
    f (elemBits a (elemWidth t) i) (elemBits b (elemWidth t) i))))

/-- The low 32 bits, or all 64 for a 64-bit type. -/
def cutType (t : BitVec 4) (x : Word64) : Word64 := if tyRegs t = 2 then x else BitVec.ofNat 64 (x.toNat % 2 ^ 32)

/-- The value of IMM32 for a type (R73). -/
def immValue (t : BitVec 4) (imm : Word32) : Word64 :=
  if t == 2 then imm.signExtend 64 else imm.zeroExtend 64

/-! ### Results of the integer chapter (R93–R105) -/

/-- IADDC's exact sum and ISUBB's exact difference. -/
def carryExact (sub : Bool) (x y cin : Int) : Int := if sub then x - y - cin else x + y + cin

/-- IAVG. -/
def avg (fl : Bool) (x y : Int) : Int := (if fl then x + y else x + y + 1).fdiv 2

/-- IMULH (R95). -/
def mulHigh (t : BitVec 4) (a b : Word64) : Word64 :=
  elementwise t false (fun x y _ => (x * y).fdiv ((2 : Int) ^ elemWidth t)) a b 0

/-- IMADW (R96): C and the result hold elements of twice the width. -/
def madWide (t : BitVec 4) (sat : Bool) (a b c : Word64) : Word64 :=
  let w := elemWidth t
  BitVec.ofNat 64 (packElems (2 * w) ((List.range (tyElems t)).map (fun i =>
    fitBits (2 * w) (tySigned t) sat (elem a i t * elem b i t + elemInt c (2 * w) i (tySigned t)))))

/-- IDOT4 and IDOT2 (R97). -/
def dotInt (t : BitVec 4) (mix sat : Bool) (a b c : Word64) : Word64 :=
  let w := elemWidth t
  let sa := tySigned t
  let sb := if mix then !sa else sa
  let sr := sa || sb
  let e := sumInt ((List.range (tyElems t)).map (fun i => elemInt a w i sa * elemInt b w i sb)) + elemInt c 32 0 sr
  BitVec.ofNat 64 (fitBits 32 sr sat e)

/-- Condition of R98. -/
def intCond (code : Nat) (x y : Int) : Bool :=
  match code with
  | 0 => x == y | 1 => x != y | 2 => x < y | 3 => x ≤ y | 4 => y < x | _ => y ≤ x

/-- ICMP (R98): all ones in each element where the condition holds. -/
def cmpInt (t : BitVec 4) (code : Nat) (a b : Word64) : Word64 :=
  elementwise t false (fun x y _ => if intCond code x y then -1 else 0) a b 0

/-- Number of 1 bits among the low w of n. -/
def popCount (w n : Nat) : Nat := ((List.range w).filter (fun i => n.testBit i)).length

/-- Number of leading bits of the low w of n that equal `b`. -/
def leadingEq : Nat → Nat → Bool → Nat
  | 0, _, _ => 0
  | w + 1, n, b => if n.testBit w == b then 1 + leadingEq w n b else 0

/-- ICLZ of one element (R100). -/
def clz (w : Nat) (sgn : Bool) (n : Nat) : Nat :=
  if sgn then leadingEq (w - 1) n (n.testBit (w - 1)) else leadingEq w n false

/-- Counts of each element, in an element of the 32-bit result (R100). -/
def countElems (t : BitVec 4) (f : Nat → Nat) (a : Word64) : Word64 :=
  BitVec.ofNat 64 (packElems (min 32 (elemWidth t)) ((List.range (tyElems t)).map (fun i =>
    f (elemBits a (elemWidth t) i))))

/-- Reverse the low w bits (R100). -/
def bitRev (w n : Nat) : Nat := (List.range w).foldl (fun r i => 2 * r + (if n.testBit i then 1 else 0)) 0

/-- IBFX (R101). -/
def bitExtract (t : BitVec 4) (x ctl : Word64) : Word64 :=
  let w := elemWidth t
  let pos := min (fieldOf ctl 0 8) w
  let len := min (fieldOf ctl 8 8) (w - pos)
  let f := ((x.toNat % 2 ^ w) >>> pos) % 2 ^ len
  BitVec.ofNat 64 (if len = 0 then 0 else if tySigned t then lowBits w (signedOf len f) else f)

/-- IBFI (R101). -/
def bitInsert (t : BitVec 4) (x y ctl : Word64) : Word64 :=
  let w := elemWidth t
  let pos := min (fieldOf ctl 0 8) w
  let len := min (fieldOf ctl 8 8) (w - pos)
  let m := (2 ^ len - 1) <<< pos
  BitVec.ofNat 64 ((x.toNat % 2 ^ w) - ((x.toNat % 2 ^ w) &&& m) + (((y.toNat <<< pos) &&& m)))

/-- SHL of one element (R103): the exact product, fitted. A count of w or more shifts everything out. -/
def shlElem (w : Nat) (sgn sat : Bool) (x : Int) (s : Nat) : Nat :=
  if s < w then fitBits w sgn sat (x * (2 : Int) ^ s)
  else if sat then fitBits w sgn true (x * (2 : Int) ^ w) else 0

/-- SHL (R103). -/
def shlInt (t : BitVec 4) (sat : Bool) (a b : Word64) : Word64 :=
  let w := elemWidth t
  BitVec.ofNat 64 (packElems w ((List.range (tyElems t)).map (fun i =>
    shlElem w (tySigned t) sat (elem a i t) (elemBits b w i))))

/-- SHR (R103). -/
def shrInt (t : BitVec 4) (a b : Word64) : Word64 :=
  bitwiseElems t (fun u s => if s < elemWidth t then u >>> s else 0) a b

/-- SRA (R103). -/
def sraInt (t : BitVec 4) (a b : Word64) : Word64 :=
  let w := elemWidth t
  bitwiseElems t (fun u s => lowBits w ((signedOf w u).fdiv ((2 : Int) ^ min s w))) a b

/-- ROTL (R103). -/
def rotlInt (t : BitVec 4) (a b : Word64) : Word64 :=
  let w := elemWidth t
  bitwiseElems t (fun u s => ((u <<< (s % w)) ||| (u >>> (w - s % w))) % 2 ^ w) a b

/-- FSHL (R103). -/
def funnel (t : BitVec 4) (a b c : Word64) : Word64 :=
  let w := elemWidth t
  let n := (c.toNat % 2 ^ 32) % (2 * w)
  BitVec.ofNat 64 (((((a.toNat % 2 ^ w) * 2 ^ w + b.toNat % 2 ^ w) * 2 ^ n) % 2 ^ (2 * w)) / 2 ^ w)

/-- PERM (R104). -/
def permBytes (a b c : Word64) : Word64 :=
  let v := (b.toNat % 2 ^ 32) <<< 32 ||| (a.toNat % 2 ^ 32)
  BitVec.ofNat 64 (packElems 8 ((List.range 4).map (fun i =>
    let nib := fieldOf c (4 * i) 4
    if nib ≥ 8 then 0 else (v >>> (8 * (nib % 8))) % 256)))

/-- LEA (R105). -/
def leaPtr (k : Nat) (p b : Word64) : Word64 :=
  let off : Int := (fieldOf p 0 40 : Int) + signedOf 32 (fieldOf b 0 32) * (2 : Int) ^ k
  if fieldOf p 62 2 = 3 ∨ off < 0 ∨ (2 : Int) ^ 40 ≤ off then
    BitVec.ofNat 64 (3 * 2 ^ 62 + fieldOf p 40 22 * 2 ^ 40 + lowBits 40 off)
  else BitVec.ofNat 64 (fieldOf p 40 24 * 2 ^ 40 + off.toNat)

end Sys2Proof.Machine
end

