-- ==== Sys2Proof/Machine/Float.lean ====
section
/-! DEFINITION. Sys2Proof/Machine/Float.lean: floating-point values, formats and RoundToFormat (R46–R55), and the
operations of spec/06_floating_instructions.md on exact values. A finite value is a dyadic number, sign × m × 2^e, so
every sum and product is exact; quotients and roots carry a sticky bit below any rounding position. -/

namespace Sys2Proof.Machine

/-- A floating-point value: an exact dyadic with its sign (so that a zero keeps one), an infinity or NaN. -/
inductive FVal where
  /-- Any NaN (R54). -/
  | nan
  /-- ±inf. -/
  | inf (neg : Bool)
  /-- (−1)^neg × m × 2^e. -/
  | fin (neg : Bool) (m : Nat) (e : Int)
  deriving DecidableEq, Repr

/-- Codes with all exponent bits set (R46). -/
inductive TopCodes where
  /-- IEEE 754: infinity and NaNs. -/
  | ieee
  /-- E4M3: only F = 0b111 is NaN. -/
  | e4m3
  /-- All finite. -/
  | finite
  deriving DecidableEq, Repr

/-- A format of R46. -/
structure FloatFmt where
  /-- Exponent bits. -/
  ebits : Nat
  /-- Fraction bits. -/
  mbits : Nat
  /-- Bias. -/
  bias : Nat
  /-- Codes at the top. -/
  top : TopCodes
  /-- Default NaN (R54); 0 where the format has none. -/
  nanCode : Nat
  deriving DecidableEq, Repr

/-- binary64. -/
def f64Fmt : FloatFmt := ⟨11, 52, 1023, .ieee, 0x7FF8000000000000⟩
/-- binary32. -/
def f32Fmt : FloatFmt := ⟨8, 23, 127, .ieee, 0x7FC00000⟩
/-- binary16. -/
def f16Fmt : FloatFmt := ⟨5, 10, 15, .ieee, 0x7E00⟩
/-- bfloat16. -/
def bf16Fmt : FloatFmt := ⟨8, 7, 127, .ieee, 0x7FC0⟩
/-- E4M3. -/
def e4m3Fmt : FloatFmt := ⟨4, 3, 7, .e4m3, 0x7F⟩
/-- E5M2. -/
def e5m2Fmt : FloatFmt := ⟨5, 2, 15, .ieee, 0x7E⟩
/-- E3M2. -/
def e3m2Fmt : FloatFmt := ⟨3, 2, 3, .finite, 0⟩
/-- E2M3. -/
def e2m3Fmt : FloatFmt := ⟨2, 3, 1, .finite, 0⟩
/-- E2M1. -/
def e2m1Fmt : FloatFmt := ⟨2, 1, 1, .finite, 0⟩

/-- Width of a format in bits. -/
def FloatFmt.width (f : FloatFmt) : Nat := 1 + f.ebits + f.mbits

/-- The format of a floating TYPE (R46); binary32 for any other code. -/
def fmtOfType (t : BitVec 4) : FloatFmt :=
  match t.toNat with
  | 9 => f16Fmt | 10 => bf16Fmt | 11 => f64Fmt | 12 => e4m3Fmt | 13 => e5m2Fmt | _ => f32Fmt

/-- The element format of an MX sub-format (R48). -/
def fmtOfMx (sub : Nat) : FloatFmt :=
  match sub with
  | 0 => e4m3Fmt | 1 => e5m2Fmt | 2 => e2m3Fmt | 3 => e3m2Fmt | _ => e2m1Fmt

/-- The value of a code (R46). -/
def FloatFmt.decode (f : FloatFmt) (bits : Nat) : FVal :=
  let neg := bits.testBit (f.ebits + f.mbits)
  let ex := (bits >>> f.mbits) % 2 ^ f.ebits
  let fr := bits % 2 ^ f.mbits
  if f.top = .ieee ∧ ex = 2 ^ f.ebits - 1 then (if fr = 0 then .inf neg else .nan)
  else if f.top = .e4m3 ∧ ex = 15 ∧ fr = 7 then .nan
  else if ex = 0 then .fin neg fr (1 - (f.bias : Int) - f.mbits)
  else .fin neg (2 ^ f.mbits + fr) ((ex : Int) - f.bias - f.mbits)

/-- The code of the greatest finite magnitude. -/
def FloatFmt.maxCode (f : FloatFmt) : Nat :=
  match f.top with
  | .ieee => ((2 ^ f.ebits - 1) <<< f.mbits) - 1
  | .e4m3 => 0x7E
  | .finite => 2 ^ (f.ebits + f.mbits) - 1

/-- A magnitude code with a sign. -/
def FloatFmt.signed (f : FloatFmt) (neg : Bool) (code : Nat) : Nat :=
  code + (if neg then 2 ^ (f.ebits + f.mbits) else 0)

/-- Rounding mode (R50). -/
inductive Rounding where
  /-- To nearest, ties to even. -/
  | rne
  /-- Toward zero. -/
  | rz
  /-- Toward −∞. -/
  | rd
  /-- Toward +∞. -/
  | ru
  /-- Stochastic, with the value q drawn from the generator (R52). -/
  | sr (q : Nat)
  deriving DecidableEq, Repr

/-- MOD[2:0] as a rounding mode; `q` serves the stochastic mode. -/
def roundingOf (code q : Nat) : Rounding :=
  match code with
  | 0 => .rne | 1 => .rz | 2 => .rd | 3 => .ru | _ => .sr q

/-- m × 2^(−s) rounded to an integer under a mode; `neg` is the sign of the value (R50–R52). -/
def roundShift (mode : Rounding) (neg : Bool) (m s : Nat) : Nat :=
  let s' := min s (log2 m + 3)
  let k := m >>> s'
  let rem := m % 2 ^ s'
  if rem = 0 then k
  else
    match mode with
    | .rne => if 2 * rem > 2 ^ s' ∨ (2 * rem = 2 ^ s' ∧ k % 2 = 1) then k + 1 else k
    | .rz => k
    | .rd => if neg then k + 1 else k
    | .ru => if neg then k else k + 1
    | .sr q =>
      -- t = ⌊(x − lo) ÷ (hi − lo) × 2³²⌋ on the exact shift s; hi is the neighbour of greater value
      let up := (m <<< 32) >>> s
      let t := if neg then 2 ^ 32 * (k + 1) - up - (if (m <<< 32) % 2 ^ (min s (log2 m + 35)) = 0 then 0 else 1) else up - 2 ^ 32 * k
      if neg then (if q < t then k else k + 1) else (if q < t then k + 1 else k)

/-- The magnitude code of RoundUnbounded (R51): codes go on upward past the format's largest exponent. -/
def FloatFmt.roundMag (f : FloatFmt) (mode : Rounding) (neg : Bool) (m : Nat) (e : Int) : Nat :=
  let minExp : Int := 1 - (f.bias : Int) - f.mbits
  let q : Int := max ((log2 m : Int) + e - f.mbits) minExp
  let k := if q ≤ e then m <<< (e - q).toNat else roundShift mode neg m (q - e).toNat
  if k < 2 ^ f.mbits then k
  else
    let k' := if k = 2 ^ (f.mbits + 1) then 2 ^ f.mbits else k
    let q' := if k = 2 ^ (f.mbits + 1) then q + 1 else q
    ((q' + f.bias + f.mbits).toNat <<< f.mbits) + (k' - 2 ^ f.mbits)

/-- RoundToFormat of R51 for a floating format. -/
def FloatFmt.round (f : FloatFmt) (mode : Rounding) (sat : Bool) : FVal → Nat
  | .nan => f.nanCode
  | .inf neg =>
    match f.top with
    | .ieee => f.signed neg (f.maxCode + 1)
    | .e4m3 => if sat then f.signed neg f.maxCode else f.nanCode
    | .finite => f.signed neg f.maxCode
  | .fin neg m e =>
    if m = 0 then f.signed neg 0
    else
      let c := f.roundMag mode neg m e
      if c ≤ f.maxCode then f.signed neg c
      else
        let clip := match mode with
          | .sr _ => true
          | .rz => true
          | .rd => !neg
          | .ru => neg
          | .rne => false
        if sat || f.top == .finite || clip then f.signed neg f.maxCode
        else if f.top == .ieee then f.signed neg (f.maxCode + 1)
        else f.nanCode

/-- RoundToIntegral of an exact value (R51). -/
def FVal.toIntegral (mode : Rounding) (neg : Bool) (m : Nat) (e : Int) : Int :=
  let k := if 0 ≤ e then m <<< e.toNat else roundShift mode neg m (-e).toNat
  if neg then -(k : Int) else k

/-- RoundToFormat of R51 for an integer format: clamps, and NaN gives 0 (R45). -/
def FVal.toInteger (w : Nat) (sgn : Bool) (mode : Rounding) : FVal → Nat
  | .nan => 0
  | .inf neg => lowBits w (if neg then intLow w sgn else intHigh w sgn)
  | .fin neg m e => fitBits w sgn true (FVal.toIntegral mode neg m e)

/-- An integer as an exact value; zero is +0. -/
def FVal.ofInt (x : Int) : FVal := .fin (x < 0) x.natAbs 0

/-- The other sign. -/
def FVal.negate : FVal → FVal
  | .nan => .nan
  | .inf neg => .inf (!neg)
  | .fin neg m e => .fin (!neg) m e

/-- Sign of a finite value as an integer multiplier. -/
def withSign (neg : Bool) (m : Nat) : Int := if neg then -(m : Int) else m

/-- IEEE sum, exact (R55); `rd` is set under rounding toward −∞, where a sum of zero is −0. -/
def FVal.add (rd : Bool) : FVal → FVal → FVal
  | .nan, _ => .nan
  | _, .nan => .nan
  | .inf a, .inf b => if a = b then .inf a else .nan
  | .inf a, _ => .inf a
  | _, .inf b => .inf b
  | .fin na ma ea, .fin nb mb eb =>
    if ma = 0 ∧ mb = 0 then .fin (if na = nb then na else rd) 0 0
    else if ma = 0 then .fin nb mb eb
    else if mb = 0 then .fin na ma ea
    else
      let e := min ea eb
      let s := withSign na (ma <<< (ea - e).toNat) + withSign nb (mb <<< (eb - e).toNat)
      if s = 0 then .fin rd 0 0 else .fin (s < 0) s.natAbs e

/-- IEEE product, exact (R55). -/
def FVal.mul : FVal → FVal → FVal
  | .nan, _ => .nan
  | _, .nan => .nan
  | .inf a, .inf b => .inf (a != b)
  | .inf a, .fin b m _ => if m = 0 then .nan else .inf (a != b)
  | .fin a m _, .inf b => if m = 0 then .nan else .inf (a != b)
  | .fin a ma ea, .fin b mb eb => .fin (a != b) (ma * mb) (ea + eb)

/-- x × 2^k; a zero, an infinity or NaN is unchanged (R117). -/
def FVal.scale (k : Int) : FVal → FVal
  | .fin neg m e => .fin neg m (e + k)
  | x => x

/-- Value order of finite magnitudes: ma·2^ea < mb·2^eb. -/
def magLt (ma : Nat) (ea : Int) (mb : Nat) (eb : Int) : Bool :=
  let e := min ea eb
  ma <<< (ea - e).toNat < mb <<< (eb - e).toNat

/-- x < y as numbers; false where either is NaN. -/
def FVal.lt : FVal → FVal → Bool
  | .nan, _ => false
  | _, .nan => false
  | .inf a, .inf b => a && !b
  | .inf a, _ => a
  | _, .inf b => !b
  | .fin na ma ea, .fin nb mb eb =>
    if na ∧ ma ≠ 0 then (if nb ∧ mb ≠ 0 then magLt mb eb ma ea else true)
    else if nb ∧ mb ≠ 0 then false
    else magLt ma ea mb eb

/-- The value is NaN. -/
def FVal.isNan : FVal → Bool
  | .nan => true
  | _ => false

/-- The sign. -/
def FVal.isNeg : FVal → Bool
  | .nan => false
  | .inf neg => neg
  | .fin neg _ _ => neg

/-- Order of FMIN to FMAXM (R112): −0 below +0. -/
def FVal.below (x y : FVal) : Bool := x.lt y || (!y.lt x && x.isNeg && !y.isNeg)

/-- The minimum and maximum instructions on codes of one format (R112). -/
def minMax (f : FloatFmt) (isMax propagate : Bool) (a b : Nat) : Nat :=
  let x := f.decode a
  let y := f.decode b
  match x.isNan, y.isNan with
  | true, true => f.nanCode
  | true, false => if propagate then f.nanCode else b
  | false, true => if propagate then f.nanCode else a
  | false, false => if isMax then (if x.below y then b else a) else (if y.below x then b else a)

/-- Condition of FCMP (R113). -/
def floatCond (code : Nat) (x y : FVal) : Bool :=
  let num := !x.isNan && !y.isNan
  let lt := x.lt y
  let gt := y.lt x
  match code with
  | 0 => num && !lt && !gt
  | 1 => !(num && !lt && !gt)
  | 2 => lt
  | 3 => num && !gt
  | 4 => gt
  | 5 => num && !lt
  | 6 => num
  | _ => !num

/-- FCLASS of a code (R114). -/
def classOf (f : FloatFmt) (bits : Nat) : Nat :=
  let neg := bits.testBit (f.ebits + f.mbits)
  let ex := (bits >>> f.mbits) % 2 ^ f.ebits
  match f.decode bits with
  | .nan => if bits.testBit (f.mbits - 1) then 2 ^ 9 else 2 ^ 8
  | .inf _ => if neg then 1 else 2 ^ 7
  | .fin _ m _ =>
    if m = 0 then (if neg then 2 ^ 3 else 2 ^ 4)
    else if ex = 0 then (if neg then 2 ^ 2 else 2 ^ 5)
    else (if neg then 2 ^ 1 else 2 ^ 6)

/-! ### Quotients and roots (R115) -/

/-- ⌊√n⌋ by bits, `k` of them. -/
def isqrtBits (n : Nat) : Nat → Nat → Nat
  | 0, r => r
  | k + 1, r => isqrtBits n k (if (r + 2 ^ k) * (r + 2 ^ k) ≤ n then r + 2 ^ k else r)

/-- ⌊√n⌋. -/
def isqrt (n : Nat) : Nat := isqrtBits n (log2 n / 2 + 1) 0

/-- The quotient of positive magnitudes, cut far below any rounding position with a sticky bit. -/
def divMag (neg : Bool) (ma : Nat) (ea : Int) (mb : Nat) (eb : Int) : FVal :=
  let s := 96 + log2 mb
  let q := (ma <<< s) / mb
  .fin neg (2 * q + (if q * mb = ma <<< s then 0 else 1)) (ea - eb - s - 1)

/-- FDIV (R115). -/
def FVal.div : FVal → FVal → FVal
  | .nan, _ => .nan
  | _, .nan => .nan
  | .inf _, .inf _ => .nan
  | .inf a, .fin b _ _ => .inf (a != b)
  | .fin a _ _, .inf b => .fin (a != b) 0 0
  | .fin a ma ea, .fin b mb eb =>
    if mb = 0 then (if ma = 0 then .nan else .inf (a != b))
    else if ma = 0 then .fin (a != b) 0 0
    else divMag (a != b) ma ea mb eb

/-- √(m × 2^e) cut with a sticky bit; m ≠ 0. -/
def sqrtMag (m : Nat) (e : Int) : FVal :=
  let m' := if e % 2 = 0 then m else 2 * m
  let e' := if e % 2 = 0 then e else e - 1
  let n := m' <<< 160
  let r := isqrt n
  .fin false (2 * r + (if r * r = n then 0 else 1)) (e'.fdiv 2 - 81)

/-- FSQRT (R115). -/
def FVal.sqrt : FVal → FVal
  | .nan => .nan
  | .inf neg => if neg then .nan else .inf false
  | .fin neg m e => if m = 0 then .fin neg 0 0 else if neg then .nan else sqrtMag m e

/-- FRSQ (R115): 1 ÷ √x; ±0 gives ±inf. -/
def FVal.rsqrt : FVal → FVal
  | .nan => .nan
  | .inf neg => if neg then .nan else .fin false 0 0
  | .fin neg m e =>
    if m = 0 then .inf neg else if neg then .nan
    else
      let m' := if e % 2 = 0 then m else 2 * m
      let e' := if e % 2 = 0 then e else e - 1
      let n := 2 ^ 320
      let r := isqrt (n / m')
      .fin false (2 * r + (if r * r * m' = n then 0 else 1)) (-(e'.fdiv 2) - 161)

/-- FRCP (R115). -/
def FVal.recip (x : FVal) : FVal := FVal.div (.fin false 1 0) x

/-! ### Transcendental functions (R116)

The result is a fixed function of the source bits that no rule gives further: `Config` holds it, with no value. It is
used where it lies within the bound of R116 around the exact value, and the enclosure's own rounding otherwise, so
that the bound holds whatever `Config` holds. The exact value is enclosed by fixed-point series with an error far
below 2^−64 of the bound. -/

/-- Fraction bits of the fixed-point series. -/
def fixP : Nat := 320

/-- π × 2^512, cut. -/
def piFix : Nat :=
  0x3243f6a8885a308d313198a2e03707344a4093822299f31d0082efa98ec4e6c89452821e638d01377be5466cf34e90c6cc0ac29b7c97c50dd3f84d5b5b5470917

/-- ln 2 × 2^512, cut. -/
def ln2Fix : Nat :=
  0xb17217f7d1cf79abc9e3b39803f2f6af40f343267298b62d8a0d175b8baafa2be7b876206debac98559552fb4afa1b10ed2eae35c138214427573b291169b825

/-- Σ term of the exponential series: acc + t + t·r/(k+1) + … -/
def expSeries (r : Int) : Nat → Nat → Int → Int → Int
  | 0, _, _, acc => acc
  | n + 1, k, t, acc => expSeries r n (k + 1) ((t * r / (2 : Int) ^ fixP) / ((k : Int) + 1)) (acc + t)

/-- e^r in fixed point for 0 ≤ r < 1. -/
def expFix (r : Int) : Int := expSeries r 100 0 ((2 : Int) ^ fixP) 0

/-- Alternating series of sine (from term x) and cosine (from term 1): each term is the last × x² ÷ ((k+1)(k+2)). -/
def trigSeries (x2 : Int) : Nat → Nat → Int → Int → Int
  | 0, _, _, acc => acc
  | n + 1, k, t, acc =>
    trigSeries x2 n (k + 2) (-(t * x2 / (2 : Int) ^ fixP) / (((k : Int) + 1) * ((k : Int) + 2))) (acc + t)

/-- Series of atanh: z + z³/3 + z⁵/5 + … -/
def atanhSeries (z2 : Int) : Nat → Nat → Int → Int → Int
  | 0, _, _, acc => acc
  | n + 1, k, p, acc => atanhSeries z2 n (k + 2) (p * z2 / (2 : Int) ^ fixP) (acc + p / (k : Int))

/-- x in fixed point, x = ± m × 2^e. -/
def toFix (neg : Bool) (m : Nat) (e : Int) : Int :=
  let s := e + fixP
  withSign neg (if 0 ≤ s then m <<< s.toNat else m >>> (-s).toNat)

/-- A fixed-point number as a value. -/
def ofFix (x : Int) (shift : Int) : FVal := .fin (x < 0) x.natAbs (shift - fixP)

/-- e^x = 2^n × (result): the quotient n and the fixed-point mantissa in [1, 2). -/
def expParts (x : Int) : Int × Int :=
  let l : Int := ((ln2Fix >>> (512 - fixP) : Nat) : Int)
  let n := x.fdiv l
  (n, expFix (x - n * l))

/-- 2^x. -/
def exp2Approx (neg : Bool) (m : Nat) (e : Int) : FVal :=
  let x := toFix neg m e
  let n := x.fdiv ((2 : Int) ^ fixP)
  let f := x - n * (2 : Int) ^ fixP
  ofFix (expFix (f * ((ln2Fix >>> (512 - fixP) : Nat) : Int) / (2 : Int) ^ fixP)) n

/-- log₂ x for x > 0. -/
def log2Approx (m : Nat) (e : Int) : FVal :=
  let n : Int := (log2 m : Int) + e
  let t : Int := (((m <<< fixP) >>> log2 m : Nat) : Int)
  let one : Int := (2 : Int) ^ fixP
  let z := ((t - one) * one) / (t + one)
  let ln := 2 * atanhSeries (z * z / one) 110 1 z 0
  ofFix (n * one + ln * one / ((ln2Fix >>> (512 - fixP) : Nat) : Int)) 0

/-- x reduced to [−π, π] in fixed point, with 160 guard bits in the reduction. -/
def reduceTrig (neg : Bool) (m : Nat) (e : Int) : Int :=
  let s := e + fixP + 160
  let x := if 0 ≤ s then m <<< s.toNat else m >>> (-s).toNat
  let twoPi := piFix >>> 31
  let r := x % twoPi
  let c : Int := if 2 * r ≤ twoPi then (r : Int) else (r : Int) - twoPi
  let c' := c.fdiv ((2 : Int) ^ 160)
  if neg then -c' else c'

/-- sin x. -/
def sinApprox (neg : Bool) (m : Nat) (e : Int) : FVal :=
  let r := reduceTrig neg m e
  ofFix (trigSeries (r * r / (2 : Int) ^ fixP) 70 1 r 0) 0

/-- cos x. -/
def cosApprox (neg : Bool) (m : Nat) (e : Int) : FVal :=
  let r := reduceTrig neg m e
  ofFix (trigSeries (r * r / (2 : Int) ^ fixP) 70 0 ((2 : Int) ^ fixP) 0) 0

/-- The value is at least 2^k in magnitude. -/
def magGe (m : Nat) (e : Int) (k : Int) : Bool := m ≠ 0 && k ≤ (log2 m : Int) + e

/-- tanh x. -/
def tanhApprox (neg : Bool) (m : Nat) (e : Int) : FVal :=
  if magGe m e 6 then .fin neg (2 ^ 170 - 1) (-170)
  else
    let p := expParts (2 * toFix false m e)
    let one : Int := (2 : Int) ^ fixP
    let y := p.2 * (2 : Int) ^ p.1.toNat
    .fin neg (((y - one) * one / (y + one)).toNat) (-(fixP : Int))

/-- 1 ÷ (1 + e^(−x)). -/
def sigmApprox (neg : Bool) (m : Nat) (e : Int) : FVal :=
  if magGe m e 8 then (if neg then .fin false 1 (-300) else .fin false (2 ^ 170 - 1) (-170))
  else
    let p := expParts (toFix false m e)
    let one : Int := (2 : Int) ^ fixP
    let y := p.2 * (2 : Int) ^ p.1.toNat
    .fin false ((if neg then one * one / (one + y) else y * one / (one + y)).toNat) (-(fixP : Int))

/-- ⌊log₂⌋ of ulp(y) (R116). -/
def ulpExp (m : Nat) (e : Int) : Int := max ((log2 m : Int) + e) (-126) - 23

/-- The code c lies within `b` ulp of y, less 2^−64 of that for the enclosure. -/
def withinUlp (b : Nat) (y : FVal) (c : Nat) : Bool :=
  match y, f32Fmt.decode c with
  | .fin ny my ey, .fin nc mc ec =>
    let base := min (min ey ec) (ulpExp my ey) - 64
    let d := withSign ny (my <<< (ey - base).toNat) - withSign nc (mc <<< (ec - base).toNat)
    d.natAbs + b * 2 ^ (ulpExp my ey - 64 - base).toNat ≤ b * 2 ^ (ulpExp my ey - base).toNat
  | _, _ => false

/-- The hardware's fixed function where it keeps the bound, the nearest code otherwise. -/
def boundedResult (b : Nat) (y : FVal) (c : Word32) (extra : FVal → Bool) : Nat :=
  if withinUlp b y c.toNat && extra (f32Fmt.decode c.toNat) then c.toNat else f32Fmt.round .rne false y

/-- No further limit. -/
def anyResult (_ : FVal) : Bool := true
/-- The magnitude is at most 1. -/
def atMostOne (v : FVal) : Bool := !(FVal.fin false 1 0).lt v && !v.lt (.fin true 1 0)
/-- The value lies in [0, 1]. -/
def zeroToOne (v : FVal) : Bool := !(FVal.fin false 1 0).lt v && !v.lt (.fin false 0 0)

/-- FEXP2 (R116). -/
def exp2Code (a : Nat) : Nat :=
  match f32Fmt.decode a with
  | .nan => f32Fmt.nanCode
  | .inf neg => if neg then 0 else 0x7F800000
  | .fin neg m e =>
    if m = 0 then 0x3F800000
    else if !neg && magGe m e 7 then 0x7F800000
    else if neg && !(FVal.fin false m e).lt (.fin false 150 0) then 0
    else if 0 ≤ e ∨ m % 2 ^ (-e).toNat = 0 then f32Fmt.round .rne false (.fin false 1 (FVal.toIntegral .rz neg m e))
    else boundedResult 1 (exp2Approx neg m e) (Config.fexp2 (BitVec.ofNat 32 a)) anyResult

/-- FLOG2 (R116). -/
def log2Code (a : Nat) : Nat :=
  match f32Fmt.decode a with
  | .nan => f32Fmt.nanCode
  | .inf neg => if neg then f32Fmt.nanCode else 0x7F800000
  | .fin neg m e =>
    if m = 0 then 0xFF800000
    else if neg then f32Fmt.nanCode
    else if m = 2 ^ log2 m then f32Fmt.round .rne false (FVal.ofInt ((log2 m : Int) + e))
    else boundedResult 1 (log2Approx m e) (Config.flog2 (BitVec.ofNat 32 a)) anyResult

/-- FSIN (R116). -/
def sinCode (a : Nat) : Nat :=
  match f32Fmt.decode a with
  | .fin neg m e =>
    if m = 0 then a else boundedResult 2 (sinApprox neg m e) (Config.fsin (BitVec.ofNat 32 a)) anyResult
  | _ => f32Fmt.nanCode

/-- FCOS (R116). -/
def cosCode (a : Nat) : Nat :=
  match f32Fmt.decode a with
  | .fin neg m e =>
    if m = 0 then 0x3F800000 else boundedResult 2 (cosApprox neg m e) (Config.fcos (BitVec.ofNat 32 a)) anyResult
  | _ => f32Fmt.nanCode

/-- FTANH (R116). -/
def tanhCode (a : Nat) : Nat :=
  match f32Fmt.decode a with
  | .nan => f32Fmt.nanCode
  | .inf neg => f32Fmt.signed neg 0x3F800000
  | .fin neg m e =>
    if m = 0 then a else boundedResult 2 (tanhApprox neg m e) (Config.ftanh (BitVec.ofNat 32 a)) atMostOne

/-- FSIGM (R116). -/
def sigmCode (a : Nat) : Nat :=
  match f32Fmt.decode a with
  | .nan => f32Fmt.nanCode
  | .inf neg => if neg then 0 else 0x3F800000
  | .fin neg m e =>
    if m = 0 then 0x3F000000 else boundedResult 2 (sigmApprox neg m e) (Config.fsigm (BitVec.ofNat 32 a)) zeroToOne

/-! ### Integral, fraction (R117) -/

/-- FRND of an exact value: an integral value with the sign of x. -/
def FVal.integral (mode : Rounding) : FVal → FVal
  | .fin neg m e => .fin neg (FVal.toIntegral mode neg m e).natAbs 0
  | x => x

/-- x − ⌊x⌋; +0 where it is zero. -/
def FVal.fracPart : FVal → FVal
  | .fin neg m e =>
    if 0 ≤ e then .fin false 0 0
    else
      let s := (-e).toNat
      let r := m % 2 ^ s
      .fin false (if r = 0 then 0 else if neg then 2 ^ s - r else r) e
  | _ => .nan

/-- FFRAC of one element (R117). -/
def fracCode (f : FloatFmt) (mode : Rounding) (a : Nat) : Nat :=
  let one := f.bias <<< f.mbits
  let r := f.round mode false (f.decode a).fracPart
  if r = one then one - 1 else r

/-! ### Elementwise operations on lane values (R110) -/

/-- Elementwise floating operation that rounds. -/
def floatElems (t : BitVec 4) (mode : Rounding) (f : FVal → FVal → FVal → FVal) (a b c : Word64) : Word64 :=
  let fm := fmtOfType t
  let w := elemWidth t
  BitVec.ofNat 64 (packElems w ((List.range (tyElems t)).map (fun i =>
    fm.round mode false (f (fm.decode (elemBits a w i)) (fm.decode (elemBits b w i)) (fm.decode (elemBits c w i))))))

/-- Elementwise operation on codes. -/
def codeElems (t : BitVec 4) (f : FloatFmt → Nat → Nat → Nat) (a b : Word64) : Word64 :=
  let w := elemWidth t
  BitVec.ofNat 64 (packElems w ((List.range (tyElems t)).map (fun i =>
    f (fmtOfType t) (elemBits a w i) (elemBits b w i))))

/-- FDOT2 (R118). -/
def dotFloat (t : BitVec 4) (mode : Rounding) (a b c : Word64) : Word64 :=
  let fm := fmtOfType t
  let p (i : Nat) : FVal := FVal.mul (fm.decode (elemBits a 16 i)) (fm.decode (elemBits b 16 i))
  let rd := mode == .rd
  BitVec.ofNat 64 (f32Fmt.round mode false (FVal.add rd (FVal.add rd (p 0) (p 1)) (f32Fmt.decode (elemBits c 32 0))))

/-! ### Conversions (R119–R124) -/

/-- Conv of R119: one element of type `src` to type `dst`. -/
def convElem (dst src : BitVec 4) (mode : Rounding) (sat : Bool) (bits : Nat) : Nat :=
  let w := elemWidth dst
  if tyInt dst && tyInt src then
    fitBits w (tySigned dst) sat (if tySigned src then signedOf (elemWidth src) bits else (bits : Int))
  else
    let x := if tyInt src then FVal.ofInt (if tySigned src then signedOf (elemWidth src) bits else (bits : Int))
      else (fmtOfType src).decode bits
    if tyInt dst then x.toInteger w (tySigned dst) mode else (fmtOfType dst).round mode sat x

/-- CVT and CVTSR of a lane value (R119, R120): widening picks group k, narrowing places into group k. -/
def convLane (dst src : BitVec 4) (k : Nat) (mode : Rounding) (sat : Bool) (a : Word64) : Word64 :=
  let ns := tyElems src
  let nd := tyElems dst
  let conv (i : Nat) : Nat := convElem dst src mode sat (elemBits a (elemWidth src) i)
  BitVec.ofNat 64 (packElems (elemWidth dst) ((List.range nd).map (fun j =>
    if nd ≤ ns then conv (k * nd + j)
    else if k * ns ≤ j ∧ j < k * ns + ns then conv (j - k * ns) else 0)))

/-- PACK (R121). -/
def packLane (t src : BitVec 4) (sel : Nat) (mode : Rounding) (sat : Bool) (a b c : Word64) : Word64 :=
  let w := elemWidth t
  let base := if tyElems t = 4 then c else 0
  BitVec.ofNat 64 (packElems w ((List.range (tyElems t)).map (fun j =>
    if j = 2 * sel then convElem t src mode sat (elemBits a 32 0)
    else if j = 2 * sel + 1 then convElem t src mode sat (elemBits b 32 0)
    else elemBits base w j)))

/-- UNPK (R122): two elements widened to 32 bits. -/
def unpackLane (t : BitVec 4) (sel : Nat) (a : Word64) : Word64 :=
  let w := elemWidth t
  let wide (i : Nat) : Nat :=
    if tyInt t then (if tySigned t then lowBits 32 (signedOf w (elemBits a w i)) else elemBits a w i)
    else f32Fmt.round .rne false ((fmtOfType t).decode (elemBits a w i))
  BitVec.ofNat 64 (packElems 32 [wide (2 * sel), wide (2 * sel + 1)])

/-- Exponent of the largest normal of an MX sub-format (R123). -/
def mxEmax (sub : Nat) : Int :=
  match sub with
  | 0 => 8 | 1 => 15 | 2 => 2 | 3 => 4 | _ => 2

/-- The block scale of QMX from the values of the Active lanes (R123). -/
def mxScale (sub : Nat) (vals : List FVal) : Nat :=
  if vals.any (fun v => match v with | .fin _ _ _ => false | _ => true) then 0xFF
  else
    let exps : List Int := vals.filterMap (fun v =>
      match v with
      | .fin _ m e => if m = 0 then none else some ((log2 m : Int) + e)
      | _ => none)
    match exps with
    | [] => 127
    | x :: xs =>
      let top := xs.foldl max x
      (max 0 (min 254 (top - mxEmax sub + 127))).toNat

/-- A lane's QMX result (R123): the scale in bits [15:8], the element code in [7:0]. -/
def qmxLane (sub sc : Nat) (mode : Rounding) (a : Word64) : Word64 :=
  let q := if sc = 0xFF then 0
    else (fmtOfMx sub).round mode true ((f32Fmt.decode (elemBits a 32 0)).scale (127 - (sc : Int)))
  BitVec.ofNat 64 (sc * 2 ^ 8 + q)

/-- DQMX (R124). -/
def dqmxLane (sub : Nat) (mode : Rounding) (a : Word64) : Word64 :=
  let fm := fmtOfMx sub
  let sc := fieldOf a 8 8
  let x := fm.decode (fieldOf a 0 fm.width)
  BitVec.ofNat 64 (f32Fmt.round mode false (if sc = 0xFF then .nan else x.scale ((sc : Int) - 127)))

/-! ### Stochastic rounding (R52, R53) -/

/-- SeedLane (R52). -/
def seedLane (seed : Word64) (lane : Nat) : Word64 :=
  let st := seed ^^^ BitVec.ofNat 64 ((lane + 1) * 0x9E3779B97F4A7C15)
  if st = 0 then 1 else st

/-- The state after Next (R52); the value drawn is its upper half. -/
def nextGen (st : Word64) : Word64 :=
  let a := st ^^^ (st <<< 13)
  let b := a ^^^ (a >>> 7)
  b ^^^ (b <<< 17)

/-- The value Next returns. -/
def genDraw (st : Word64) : Nat := (nextGen st).toNat >>> 32

/-- The generator of a spawned thread (R53), from the spawner's state after its own advance. -/
def spawnGen (st : Word64) : Word64 :=
  let g := st ^^^ 0xD1B54A32D192ED03
  if g = 0 then 1 else g

end Sys2Proof.Machine
end

