-- ==== Sys2Proof/Decode.lean ====
section
/-! DEFINITION. Sys2Proof/Decode.lean: from a 64-bit instruction word to the operation it names, by the opcode map of
R79 and the formats of R70 and R80, and back. Decoding is total: a word that names no instruction is rejected by
name. A word whose opcode is assigned but whose fields an entry refuses decodes; Machine/Legal.lean refuses it when
it comes to issue (R72, R81). -/

namespace Sys2Proof

/-- Why a word names no instruction (R64, R67, R79, R80, R81). Each is an illegal-instruction fault at issue. -/
inductive DecodeError where
  /-- The opcode is unassigned in R79. -/
  | unassigned (op : BitVec 8)
  /-- Bits [63:58] are 0b111110: a block header within a block body (R67). -/
  | header
  /-- Opcode 0x00 with another bit set: only the all-zero word is NOP (R80). -/
  | nopReserved
  deriving DecidableEq, Repr

/-! ### Fields (R70) -/

/-- Cut a word into the fields of format A (and E). -/
def FmtA.ofWord (w : Word64) : FmtA :=
  { d := w.extractLsb' 48 8, a := w.extractLsb' 40 8, b := w.extractLsb' 32 8, c := w.extractLsb' 24 8,
    ty := w.extractLsb' 20 4, guard := w.extractLsb' 16 4, trap := w.extractLsb' 13 3, mod := w.extractLsb' 0 13 }

/-- Cut a word into the fields of format I. -/
def FmtI.ofWord (w : Word64) : FmtI :=
  { d := w.extractLsb' 48 8, a := w.extractLsb' 40 8, imm := w.extractLsb' 8 32, ty := w.extractLsb' 4 4,
    guard := w.extractLsb' 0 4 }

/-- Cut a word into the fields of format J. -/
def FmtJ.ofWord (w : Word64) : FmtJ :=
  { l := w.extractLsb' 48 8, a := w.extractLsb' 40 8, off := w.extractLsb' 8 32, mod := w.extractLsb' 4 4,
    guard := w.extractLsb' 0 4 }

/-- Cut a word into the fields of format M. -/
def FmtM.ofWord (w : Word64) : FmtM :=
  { d := w.extractLsb' 48 8, a := w.extractLsb' 40 8, b := w.extractLsb' 32 8, off := w.extractLsb' 20 12,
    guard := w.extractLsb' 16 4, trap := w.extractLsb' 13 3, size := w.extractLsb' 9 4, scope := w.extractLsb' 7 2,
    order := w.extractLsb' 5 2, mod := w.extractLsb' 0 5 }

/-- The word of a format A or E instruction. -/
def FmtA.toWord (op : BitVec 8) (f : FmtA) : Word64 :=
  op ++ f.d ++ f.a ++ f.b ++ f.c ++ f.ty ++ f.guard ++ f.trap ++ f.mod

/-- The word of a format I instruction. -/
def FmtI.toWord (op : BitVec 8) (f : FmtI) : Word64 := op ++ f.d ++ f.a ++ f.imm ++ f.ty ++ f.guard

/-- The word of a format J instruction. -/
def FmtJ.toWord (op : BitVec 8) (f : FmtJ) : Word64 := op ++ f.l ++ f.a ++ f.off ++ f.mod ++ f.guard

/-- The word of a format M instruction. -/
def FmtM.toWord (op : BitVec 8) (f : FmtM) : Word64 :=
  op ++ f.d ++ f.a ++ f.b ++ f.off ++ f.guard ++ f.trap ++ f.size ++ f.scope ++ f.order ++ f.mod

/-! ### The opcode map (R79, R80) -/

/-- OP, bits [63:56]. -/
def opcodeOf (w : Word64) : Nat := (w.extractLsb' 56 8).toNat

/-- Opcodes 0x01 to 0x31. -/
def decodeInt (op : Nat) (w : Word64) : Option Instr :=
  match op with
  | 0x01 => some (.iadd (.ofWord w))
  | 0x02 => some (.iaddc (.ofWord w))
  | 0x03 => some (.iadds (.ofWord w))
  | 0x04 => some (.isub (.ofWord w))
  | 0x05 => some (.isubb (.ofWord w))
  | 0x06 => some (.isubs (.ofWord w))
  | 0x07 => some (.imul (.ofWord w))
  | 0x08 => some (.imulh (.ofWord w))
  | 0x09 => some (.imad (.ofWord w))
  | 0x0A => some (.imadw (.ofWord w))
  | 0x0B => some (.idot4 (.ofWord w))
  | 0x0C => some (.idot2 (.ofWord w))
  | 0x0D => some (.iabs (.ofWord w))
  | 0x0E => some (.ineg (.ofWord w))
  | 0x0F => some (.imin (.ofWord w))
  | 0x10 => some (.imax (.ofWord w))
  | 0x11 => some (.iavg (.ofWord w))
  | 0x12 => some (.icmp (.ofWord w))
  | 0x13 => some (.isel (.ofWord w))
  | 0x14 => some (.ipopc (.ofWord w))
  | 0x15 => some (.iclz (.ofWord w))
  | 0x16 => some (.ibrev (.ofWord w))
  | 0x17 => some (.ibfx (.ofWord w))
  | 0x18 => some (.ibfi (.ofWord w))
  | 0x19 => some (.bitAnd (.ofWord w))
  | 0x1A => some (.bitOr (.ofWord w))
  | 0x1B => some (.bitXor (.ofWord w))
  | 0x1C => some (.bitNot (.ofWord w))
  | 0x1D => some (.andn (.ofWord w))
  | 0x1E => some (.shl (.ofWord w))
  | 0x1F => some (.shr (.ofWord w))
  | 0x20 => some (.sra (.ofWord w))
  | 0x21 => some (.rotl (.ofWord w))
  | 0x22 => some (.fshl (.ofWord w))
  | 0x23 => some (.perm (.ofWord w))
  | 0x24 => some (.lea (.ofWord w))
  | 0x28 => some (.iaddi (.ofWord w))
  | 0x29 => some (.imuli (.ofWord w))
  | 0x2A => some (.andi (.ofWord w))
  | 0x2B => some (.ori (.ofWord w))
  | 0x2C => some (.xori (.ofWord w))
  | 0x2D => some (.shli (.ofWord w))
  | 0x2E => some (.shri (.ofWord w))
  | 0x2F => some (.srai (.ofWord w))
  | 0x30 => some (.icmpi (.ofWord w))
  | 0x31 => some (.movi (.ofWord w))
  | _ => none

/-- Opcodes 0x40 to 0x77. -/
def decodeFloat (op : Nat) (w : Word64) : Option Instr :=
  match op with
  | 0x40 => some (.fadd (.ofWord w))
  | 0x41 => some (.fsub (.ofWord w))
  | 0x42 => some (.fmul (.ofWord w))
  | 0x43 => some (.ffma (.ofWord w))
  | 0x44 => some (.fmin (.ofWord w))
  | 0x45 => some (.fmax (.ofWord w))
  | 0x46 => some (.fminm (.ofWord w))
  | 0x47 => some (.fmaxm (.ofWord w))
  | 0x48 => some (.fcmp (.ofWord w))
  | 0x49 => some (.fclass (.ofWord w))
  | 0x4A => some (.frcp (.ofWord w))
  | 0x4B => some (.frsq (.ofWord w))
  | 0x4C => some (.fsqrt (.ofWord w))
  | 0x4D => some (.fdiv (.ofWord w))
  | 0x4E => some (.fexp2 (.ofWord w))
  | 0x4F => some (.flog2 (.ofWord w))
  | 0x50 => some (.fsin (.ofWord w))
  | 0x51 => some (.fcos (.ofWord w))
  | 0x52 => some (.ftanh (.ofWord w))
  | 0x53 => some (.fsigm (.ofWord w))
  | 0x54 => some (.frnd (.ofWord w))
  | 0x55 => some (.fscale (.ofWord w))
  | 0x56 => some (.ffrac (.ofWord w))
  | 0x57 => some (.fdot2 (.ofWord w))
  | 0x60 => some (.cvt (.ofWord w))
  | 0x61 => some (.cvtsr (.ofWord w))
  | 0x62 => some (.pack (.ofWord w))
  | 0x63 => some (.unpk (.ofWord w))
  | 0x64 => some (.qmx (.ofWord w))
  | 0x65 => some (.dqmx (.ofWord w))
  | 0x70 => some (.mov (.ofWord w))
  | 0x71 => some (.movs (.ofWord w))
  | 0x72 => some (.movx (.ofWord w))
  | 0x73 => some (.shfl (.ofWord w))
  | 0x74 => some (.vote (.ofWord w))
  | 0x75 => some (.matchLanes (.ofWord w))
  | 0x76 => some (.fold (.ofWord w))
  | 0x77 => some (.plop (.ofWord w))
  | _ => none

/-- Opcodes 0x80 to 0xA7. -/
def decodeControl (op : Nat) (w : Word64) : Option Instr :=
  match op with
  | 0x80 => some (.br (.ofWord w))
  | 0x81 => some (.brd (.ofWord w))
  | 0x82 => some (.brx (.ofWord w))
  | 0x83 => some (.call (.ofWord w))
  | 0x84 => some (.callx (.ofWord w))
  | 0x85 => some (.ret (.ofWord w))
  | 0x86 => some (.loop (.ofWord w))
  | 0x87 => some (.loopi (.ofWord w))
  | 0x88 => some (.lbrk (.ofWord w))
  | 0x89 => some (.spawn (.ofWord w))
  | 0x8A => some (.winnow (.ofWord w))
  | 0x8B => some (.exit (.ofWord w))
  | 0x8C => some (.yield (.ofWord w))
  | 0x90 => some (.ldc (.ofWord w))
  | 0x91 => some (.stc (.ofWord w))
  | 0x92 => some (.lds (.ofWord w))
  | 0x93 => some (.sts (.ofWord w))
  | 0x94 => some (.ldm (.ofWord w))
  | 0x95 => some (.stm (.ofWord w))
  | 0x96 => some (.ldw (.ofWord w))
  | 0x97 => some (.stw (.ofWord w))
  | 0x98 => some (.cctl (.ofWord w))
  | 0xA0 => some (.atc (.ofWord w))
  | 0xA1 => some (.ats (.ofWord w))
  | 0xA2 => some (.att (.ofWord w))
  | 0xA3 => some (.fence (.ofWord w))
  | 0xA4 => some (.fencesc (.ofWord w))
  | 0xA5 => some (.tfence (.ofWord w))
  | 0xA6 => some (.waita (.ofWord w))
  | 0xA7 => some (.slinit (.ofWord w))
  | _ => none

/-- Opcodes 0xB0 to 0xF4. -/
def decodeEngine (op : Nat) (w : Word64) : Option Instr :=
  match op with
  | 0xB0 => some (.binit (.ofWord w))
  | 0xB1 => some (.bexp (.ofWord w))
  | 0xB2 => some (.barv (.ofWord w))
  | 0xB3 => some (.bwait (.ofWord w))
  | 0xB4 => some (.btest (.ofWord w))
  | 0xB5 => some (.tbar (.ofWord w))
  | 0xB6 => some (.gbar (.ofWord w))
  | 0xB7 => some (.qinit (.ofWord w))
  | 0xB8 => some (.qpush (.ofWord w))
  | 0xB9 => some (.qpop (.ofWord w))
  | 0xBA => some (.qallow (.ofWord w))
  | 0xBB => some (.cvinit (.ofWord w))
  | 0xBC => some (.acalloc (.ofWord w))
  | 0xBD => some (.acfree (.ofWord w))
  | 0xC0 => some (.mma (.ofWord w))
  | 0xC1 => some (.mmasp (.ofWord w))
  | 0xC2 => some (.mmv (.ofWord w))
  | 0xC3 => some (.mldt (.ofWord w))
  | 0xC4 => some (.mzero (.ofWord w))
  | 0xC5 => some (.mepi (.ofWord w))
  | 0xD0 => some (.tcpy (.ofWord w))
  | 0xD1 => some (.tcpo (.ofWord w))
  | 0xD2 => some (.gcpy (.ofWord w))
  | 0xD3 => some (.scpy (.ofWord w))
  | 0xD4 => some (.wcpy (.ofWord w))
  | 0xD5 => some (.drain (.ofWord w))
  | 0xE0 => some (.cstep (.ofWord w))
  | 0xE1 => some (.cabort (.ofWord w))
  | 0xE2 => some (.npost (.ofWord w))
  | 0xE3 => some (.launch (.ofWord w))
  | 0xF0 => some (.trap (.ofWord w))
  | 0xF1 => some (.tret (.ofWord w))
  | 0xF2 => some (.brkpt (.ofWord w))
  | 0xF3 => some (.pkeyw (.ofWord w))
  | 0xF4 => some (.capsub (.ofWord w))
  | _ => none

/-- The instruction a word names, or why it names none. -/
def decode (w : Word64) : Except DecodeError Instr :=
  let op := opcodeOf w
  if op = 0 then (if w = 0 then .ok .nop else .error .nopReserved)
  else if op / 4 = 0x3E then .error .header
  else
    match (if op < 0x40 then decodeInt op w else if op < 0x80 then decodeFloat op w
      else if op < 0xB0 then decodeControl op w else decodeEngine op w) with
    | some i => .ok i
    | none => .error (.unassigned (w.extractLsb' 56 8))

/-- The word of an instruction; none for a step that no word encodes. -/
def encode : Instr → Option Word64
  | .nop => some 0
  | .iadd f => some (f.toWord 0x01)
  | .iaddc f => some (f.toWord 0x02)
  | .iadds f => some (f.toWord 0x03)
  | .isub f => some (f.toWord 0x04)
  | .isubb f => some (f.toWord 0x05)
  | .isubs f => some (f.toWord 0x06)
  | .imul f => some (f.toWord 0x07)
  | .imulh f => some (f.toWord 0x08)
  | .imad f => some (f.toWord 0x09)
  | .imadw f => some (f.toWord 0x0A)
  | .idot4 f => some (f.toWord 0x0B)
  | .idot2 f => some (f.toWord 0x0C)
  | .iabs f => some (f.toWord 0x0D)
  | .ineg f => some (f.toWord 0x0E)
  | .imin f => some (f.toWord 0x0F)
  | .imax f => some (f.toWord 0x10)
  | .iavg f => some (f.toWord 0x11)
  | .icmp f => some (f.toWord 0x12)
  | .isel f => some (f.toWord 0x13)
  | .ipopc f => some (f.toWord 0x14)
  | .iclz f => some (f.toWord 0x15)
  | .ibrev f => some (f.toWord 0x16)
  | .ibfx f => some (f.toWord 0x17)
  | .ibfi f => some (f.toWord 0x18)
  | .bitAnd f => some (f.toWord 0x19)
  | .bitOr f => some (f.toWord 0x1A)
  | .bitXor f => some (f.toWord 0x1B)
  | .bitNot f => some (f.toWord 0x1C)
  | .andn f => some (f.toWord 0x1D)
  | .shl f => some (f.toWord 0x1E)
  | .shr f => some (f.toWord 0x1F)
  | .sra f => some (f.toWord 0x20)
  | .rotl f => some (f.toWord 0x21)
  | .fshl f => some (f.toWord 0x22)
  | .perm f => some (f.toWord 0x23)
  | .lea f => some (f.toWord 0x24)
  | .iaddi f => some (f.toWord 0x28)
  | .imuli f => some (f.toWord 0x29)
  | .andi f => some (f.toWord 0x2A)
  | .ori f => some (f.toWord 0x2B)
  | .xori f => some (f.toWord 0x2C)
  | .shli f => some (f.toWord 0x2D)
  | .shri f => some (f.toWord 0x2E)
  | .srai f => some (f.toWord 0x2F)
  | .icmpi f => some (f.toWord 0x30)
  | .movi f => some (f.toWord 0x31)
  | .fadd f => some (f.toWord 0x40)
  | .fsub f => some (f.toWord 0x41)
  | .fmul f => some (f.toWord 0x42)
  | .ffma f => some (f.toWord 0x43)
  | .fmin f => some (f.toWord 0x44)
  | .fmax f => some (f.toWord 0x45)
  | .fminm f => some (f.toWord 0x46)
  | .fmaxm f => some (f.toWord 0x47)
  | .fcmp f => some (f.toWord 0x48)
  | .fclass f => some (f.toWord 0x49)
  | .frcp f => some (f.toWord 0x4A)
  | .frsq f => some (f.toWord 0x4B)
  | .fsqrt f => some (f.toWord 0x4C)
  | .fdiv f => some (f.toWord 0x4D)
  | .fexp2 f => some (f.toWord 0x4E)
  | .flog2 f => some (f.toWord 0x4F)
  | .fsin f => some (f.toWord 0x50)
  | .fcos f => some (f.toWord 0x51)
  | .ftanh f => some (f.toWord 0x52)
  | .fsigm f => some (f.toWord 0x53)
  | .frnd f => some (f.toWord 0x54)
  | .fscale f => some (f.toWord 0x55)
  | .ffrac f => some (f.toWord 0x56)
  | .fdot2 f => some (f.toWord 0x57)
  | .cvt f => some (f.toWord 0x60)
  | .cvtsr f => some (f.toWord 0x61)
  | .pack f => some (f.toWord 0x62)
  | .unpk f => some (f.toWord 0x63)
  | .qmx f => some (f.toWord 0x64)
  | .dqmx f => some (f.toWord 0x65)
  | .mov f => some (f.toWord 0x70)
  | .movs f => some (f.toWord 0x71)
  | .movx f => some (f.toWord 0x72)
  | .shfl f => some (f.toWord 0x73)
  | .vote f => some (f.toWord 0x74)
  | .matchLanes f => some (f.toWord 0x75)
  | .fold f => some (f.toWord 0x76)
  | .plop f => some (f.toWord 0x77)
  | .br f => some (f.toWord 0x80)
  | .brd f => some (f.toWord 0x81)
  | .brx f => some (f.toWord 0x82)
  | .call f => some (f.toWord 0x83)
  | .callx f => some (f.toWord 0x84)
  | .ret f => some (f.toWord 0x85)
  | .loop f => some (f.toWord 0x86)
  | .loopi f => some (f.toWord 0x87)
  | .lbrk f => some (f.toWord 0x88)
  | .spawn f => some (f.toWord 0x89)
  | .winnow f => some (f.toWord 0x8A)
  | .exit f => some (f.toWord 0x8B)
  | .yield f => some (f.toWord 0x8C)
  | .ldc f => some (f.toWord 0x90)
  | .stc f => some (f.toWord 0x91)
  | .lds f => some (f.toWord 0x92)
  | .sts f => some (f.toWord 0x93)
  | .ldm f => some (f.toWord 0x94)
  | .stm f => some (f.toWord 0x95)
  | .ldw f => some (f.toWord 0x96)
  | .stw f => some (f.toWord 0x97)
  | .cctl f => some (f.toWord 0x98)
  | .atc f => some (f.toWord 0xA0)
  | .ats f => some (f.toWord 0xA1)
  | .att f => some (f.toWord 0xA2)
  | .fence f => some (f.toWord 0xA3)
  | .fencesc f => some (f.toWord 0xA4)
  | .tfence f => some (f.toWord 0xA5)
  | .waita f => some (f.toWord 0xA6)
  | .slinit f => some (f.toWord 0xA7)
  | .binit f => some (f.toWord 0xB0)
  | .bexp f => some (f.toWord 0xB1)
  | .barv f => some (f.toWord 0xB2)
  | .bwait f => some (f.toWord 0xB3)
  | .btest f => some (f.toWord 0xB4)
  | .tbar f => some (f.toWord 0xB5)
  | .gbar f => some (f.toWord 0xB6)
  | .qinit f => some (f.toWord 0xB7)
  | .qpush f => some (f.toWord 0xB8)
  | .qpop f => some (f.toWord 0xB9)
  | .qallow f => some (f.toWord 0xBA)
  | .cvinit f => some (f.toWord 0xBB)
  | .acalloc f => some (f.toWord 0xBC)
  | .acfree f => some (f.toWord 0xBD)
  | .mma f => some (f.toWord 0xC0)
  | .mmasp f => some (f.toWord 0xC1)
  | .mmv f => some (f.toWord 0xC2)
  | .mldt f => some (f.toWord 0xC3)
  | .mzero f => some (f.toWord 0xC4)
  | .mepi f => some (f.toWord 0xC5)
  | .tcpy f => some (f.toWord 0xD0)
  | .tcpo f => some (f.toWord 0xD1)
  | .gcpy f => some (f.toWord 0xD2)
  | .scpy f => some (f.toWord 0xD3)
  | .wcpy f => some (f.toWord 0xD4)
  | .drain f => some (f.toWord 0xD5)
  | .cstep f => some (f.toWord 0xE0)
  | .cabort f => some (f.toWord 0xE1)
  | .npost f => some (f.toWord 0xE2)
  | .launch f => some (f.toWord 0xE3)
  | .trap f => some (f.toWord 0xF0)
  | .tret f => some (f.toWord 0xF1)
  | .brkpt f => some (f.toWord 0xF2)
  | .pkeyw f => some (f.toWord 0xF3)
  | .capsub f => some (f.toWord 0xF4)
  | _ => none

/-- A word from its eight bytes in memory order, least significant first (R6, R63). -/
def wordOfBytes (bytes : List Byte) : Word64 :=
  bytes.foldr (fun b acc => (acc <<< 8) ||| b.zeroExtend 64) 0

/-- The bytes of a word in memory order. -/
def bytesOfWord (w : Word64) : List Byte := (List.range 8).map (fun k => w.extractLsb' (8 * k) 8)

/-- Decode the bytes at an instruction's address. -/
def decodeBytes (bytes : List Byte) : Except DecodeError Instr := decode (wordOfBytes bytes)

/-- The instruction the decoder reads from a word numbered as spec/opcode_table.json numbers it. The table gives its
rows no bits, so every bit of the word from `nbits` on is 0. -/
def decodeTableWord (nbits w : Nat) : Option Instr :=
  if 64 < nbits then none
  else (decodeBytes (bytesOfWord (BitVec.ofNat 64 (w % 2 ^ nbits)))).toOption

end Sys2Proof
end

