-- ==== Sys2Proof/Machine/Assoc.lean ====
section
/-! DEFINITION. Sys2Proof/Machine/Assoc.lean: sparse tables in one canonical form, keys strictly rising. A table of
entities holds a key when the entity exists; a table of contents holds a key when its value is not the default, so
that equal contents are equal lists. -/

namespace Sys2Proof.Machine

/-- The value at a key, if the table holds one. -/
def tabFind {α : Type} : Table α → Nat → Option α
  | [], _ => none
  | (k', v) :: t, k => if k = k' then some v else tabFind t k

/-- The table with a value at a key. -/
def tabPut {α : Type} : Table α → Nat → α → Table α
  | [], k, v => [(k, v)]
  | (k', v') :: t, k, v =>
    if k < k' then (k, v) :: (k', v') :: t else if k = k' then (k, v) :: t else (k', v') :: tabPut t k v

/-- The table without a key. -/
def tabDel {α : Type} (t : Table α) (k : Nat) : Table α := t.filter (fun e => e.1 != k)

/-- The content at a key, the default where nothing is listed. -/
def tabGet {α : Type} (d : α) (t : Table α) (k : Nat) : α := (tabFind t k).getD d

/-- Set the content at a key; the default is not listed. -/
def tabSet {α : Type} [DecidableEq α] (d : α) (t : Table α) (k : Nat) (v : α) : Table α :=
  if v = d then tabDel t k else tabPut t k v

/-- Replace the value at a key that the table holds. -/
def tabMod {α : Type} (t : Table α) (k : Nat) (f : α → α) : Table α :=
  t.map (fun e => if e.1 = k then (e.1, f e.2) else e)

/-- Keys strictly rising. -/
def tabSorted {α : Type} : Table α → Bool
  | [] => true
  | [_] => true
  | (k, _) :: (k', v') :: t => k < k' && tabSorted ((k', v') :: t)

/-- The canonical form of a table of contents. -/
def tabWf {α : Type} [DecidableEq α] (d : α) (t : Table α) : Bool := tabSorted t && t.all (fun e => e.2 != d)

/-- The lowest number in [0, n) that a table does not hold. -/
def tabFree {α : Type} (t : Table α) (n : Nat) : Option Nat :=
  (List.range n).find? (fun k => (tabFind t k).isNone)

/-- Set several consecutive contents from a key on. -/
def tabSetList {α : Type} [DecidableEq α] (d : α) (t : Table α) (k : Nat) : List α → Table α
  | [] => t
  | v :: vs => tabSetList d (tabSet d t k v) (k + 1) vs

/-- The contents of n consecutive keys from k on, of a table that lists nothing below k. -/
def tabFill {α : Type} (d : α) : Table α → Nat → Nat → List α
  | _, _, 0 => []
  | [], k, n + 1 => d :: tabFill d [] (k + 1) n
  | (k', v) :: t, k, n + 1 => if k' = k then v :: tabFill d t (k + 1) n else d :: tabFill d ((k', v) :: t) (k + 1) n

/-- The contents of n consecutive keys from k on, in one pass. -/
def tabRun {α : Type} (d : α) (t : Table α) (k n : Nat) : List α := tabFill d (t.dropWhile (fun e => e.1 < k)) k n

/-- Several consecutive contents from a key on. -/
def tabGetList {α : Type} (d : α) (t : Table α) (k n : Nat) : List α :=
  (List.range n).map (fun i => tabGet d t (k + i))

end Sys2Proof.Machine
end

