-- ==== Sys2Proof/Machine/State.lean ====
section
/-! DEFINITION. Sys2Proof/Machine/State.lean: the state of one SH9 module and of the domain's memory that it reaches,
as plain data, and the state right after reset. Sparse contents are tables in canonical form (Assoc.lean); an unlisted
key holds the default that the field's docstring names. -/

namespace Sys2Proof.Machine

/-- Why the model stops. -/
inductive Fault where
  /-- An instruction word was executed with no record issuing it: `exec` was called on it outside `step`, or the
  agenda listed it. No hardware step does that. Raised by Ops.issue. Safe. -/
  | noIssuer
  deriving DecidableEq, Repr

/-- Why an operation has no meaning. -/
inductive Refusal where
  /-- The operation of that mnemonic has no meaning yet. Raised by Dispatch.exec only. Safe. -/
  | notModelled (mnemonic : String)
  deriving DecidableEq, Repr

/-! ### Groups and path records (R26–R36, R235–R256) -/

/-- Full/empty state of a v or s register (R31). -/
inductive FE where
  /-- FULL -/
  | full
  /-- EMPTY-LOCAL -/
  | emptyLocal
  /-- EMPTY-REMOTE -/
  | emptyRemote
  deriving DecidableEq, Repr

/-- A loop frame (R145). -/
structure Frame where
  /-- Remaining count, held in lcd. -/
  count : Word32
  /-- Start header. -/
  start : Word64
  /-- Exit header. -/
  exit : Word64
  /-- Call depth at the push. -/
  depth : BitVec 8
  deriving DecidableEq, Repr

/-- Where a word issued: what R255 and R228 keep of a path at issue. -/
structure Place where
  /-- The word's address. -/
  word : Word64
  /-- Header of its block. -/
  block : Word64
  /-- LEN of that header, as fetch decoded it; 0 when it has not been decoded. -/
  len : Nat
  /-- Loop frames, the top first. -/
  frames : List Frame
  /-- Call depth. -/
  depth : BitVec 8
  /-- Reconvergence stack, the top first. -/
  stack : List Word64
  /-- Control arrived at the word as at a reconvergence header in the middle of a block: it must be a header (R65, R66). -/
  arrived : Bool
  deriving DecidableEq, Repr

/-- State of a path record (R238). -/
inductive RecState where
  /-- Free -/
  | free
  /-- Running -/
  | running
  /-- Waiting at its top reconvergence header. -/
  | waiting
  /-- Parked -/
  | parked
  deriving DecidableEq, Repr

/-- A pending matrix-check delivery (R276): the tile's window-2 pointer and the threads that signed. -/
structure MatFault where
  /-- Order number of its round on the core: deliveries come in this order. -/
  order : Nat
  /-- x.faultaddr to set. -/
  addr : Word64
  /-- Address of its record in the log; 0 when it was dropped. -/
  log : Word64
  /-- Threads, by lane. -/
  lanes : LaneMask
  deriving DecidableEq, Repr

/-- A path record (R238) with its park entry (R252). -/
structure PathRec where
  /-- State. -/
  state : RecState
  /-- Threads the record holds. -/
  lanes : LaneMask
  /-- The word it issues next, its block, frames, call depth and stack. `place.word = place.block` means that the
  record stands at a block header whose first word it issues next. -/
  place : Place
  /-- Trap-return record while in trap (R228). -/
  trap : Option Place
  /-- REASON of the park entry; 0 when not parked. -/
  reason : Nat
  /-- OBJ of the park entry. -/
  obj : Word64
  /-- What the parked word awaits has come about, with the result it writes (LAUNCH, PKEYW, CAPSUB, ACALLOC, TBAR,
  GBAR, FENCESC, TFENCE). -/
  answer : Option Word64
  /-- Park of a lane refused at the memory port or by BRKPT: the fault class that a resume may deliver (R356). -/
  cls : Nat
  /-- Mask with which the record arrived at TBAR (0–15, 0 for all), 16 at GBAR (R182, R183). -/
  arrive : Option Nat
  /-- Time at which FENCESC's drain and fence completed (R170). -/
  drained : Option Nat
  /-- The address check of the parked word at the memory port: pointers awaited (R356). -/
  waitPtrs : List Word64
  /-- Pending matrix-check deliveries (R276), oldest first. -/
  matFaults : List MatFault
  /-- A wake has reached it and PARK_WAKE is due. -/
  woken : Bool
  /-- Issue number of its FENCESC, in the order of the core's fences (R170). -/
  fence : Nat
  /-- Cycle of its core's clock from which its next word may issue: its last word has left its pipe, and what a transfer, a
  trap, a return from it or a wake takes has passed (R156, R194, R234, R240). -/
  ready : Nat
  deriving DecidableEq, Repr

/-- No place. -/
def Place.blank : Place := ⟨0, 0, 0, [], 0, [], false⟩

/-- A free record. -/
def PathRec.free : PathRec :=
  ⟨.free, 0, Place.blank, none, 0, 0, none, 0, none, none, [], [], false, 0, 0⟩

/-- A path to be ranked: as it would run on, the class that breaks ties, the target of a taken half, the record it
holds, and the record of the path it came from (R140). -/
structure Cand where
  /-- The path. -/
  q : PathRec
  /-- 0 a path that existed, 1 the fall-through half, 2 a taken half. -/
  kind : Nat
  /-- Target of a taken half. -/
  target : Nat
  /-- Record it holds already. -/
  old : Option Nat
  /-- Record of the path it came from. -/
  home : Nat
  deriving DecidableEq, Repr

/-- A path that has split: its halves are ranked once the word that the group's other path issues in the same cycle is
done (R155). -/
structure SplitWait where
  /-- Record of the path. -/
  prec : Nat
  /-- The path as it issued. -/
  q : PathRec
  /-- Active. -/
  act : LaneMask
  /-- The word. -/
  instr : Instr
  /-- The halves. -/
  halves : List Cand
  /-- It split under the launch's UNIFORM_DEMOTE flag. -/
  demoted : Bool
  deriving DecidableEq, Repr

/-- A resident group (R235). -/
structure Group where
  /-- Context. -/
  ctx : Nat
  /-- Launch in progress. -/
  launch : Nat
  /-- Team slot. -/
  team : Nat
  /-- x.group -/
  index : Nat
  /-- x.role -/
  role : Nat
  /-- Issue partition. -/
  part : Nat
  /-- Register budget B. -/
  budget : Nat
  /-- Cycle of admission or bin launch (R237). -/
  age : Nat
  /-- Vector registers: key 32 × register + lane; default 0. -/
  v : Table Word32
  /-- Uniform registers s0–s47; default 0. -/
  s : Table Word64
  /-- Predicates p1–p7; default 0. -/
  p : Table LaneMask
  /-- Full/empty states by specifier code 0x00–0xEF; default FULL. -/
  fe : Table FE
  /-- Results that may not be read yet: lanes, and the cycle of the core's clock from which they may, by specifier code
  0x00–0xF7, or 0x100 and the index of a special register (R240). -/
  due : Table (List (LaneMask × Nat))
  /-- Path records 0–3; default free. -/
  recs : Table PathRec
  /-- Paths at the trap block that wait for the spill which makes room for them, oldest first (R228). -/
  trapWaits : List PathRec
  /-- Splits whose halves have not been ranked (R155). -/
  splits : List SplitWait
  /-- Stochastic-rounding generator of each lane (R52); default 0. -/
  gens : Table Word64
  /-- x.faultaddr -/
  faultaddr : Word64
  /-- x.faultcode -/
  faultcode : Word64
  /-- x.mstat -/
  mstat : Word64
  /-- x.seed -/
  seed : Word64
  /-- Owing bit (R288). -/
  owes : Bool
  /-- Cycles ready and not issued (R241). -/
  wait : Nat
  /-- No threads left; the slot waits for outstanding accesses and copies (R151). -/
  ended : Bool
  deriving DecidableEq, Repr

/-- A descriptor (R347) as its 32 bytes. -/
abbrev DescWord := BitVec 256

/-- One lane of an outstanding access: address and data as issued. -/
structure LaneAccess where
  /-- Lane. -/
  lane : Nat
  /-- Pointer or scratchpad offset. -/
  ptr : Word64
  /-- Store data or atomic operand, at most 16 bytes. -/
  data : BitVec 128
  /-- Who held the on-chip target at the check: one more than the cycle of admission of its group or team; 0 otherwise (R266). -/
  owner : Nat
  /-- The descriptor with which it was checked (R349). -/
  desc : Option DescWord
  deriving DecidableEq, Repr

/-- An access that a group has issued and that is not complete (R31, R193): performed in issue order within its group
(R192), its results written when they return. -/
structure Access where
  /-- Group slot; 64 or more once the group has ended. -/
  slot : Nat
  /-- Path record that issued it. -/
  prec : Nat
  /-- Context. -/
  ctx : Nat
  /-- The instruction. -/
  instr : Instr
  /-- Where it issued (R255). -/
  place : Place
  /-- Lanes that passed the checks at issue. -/
  lanes : List LaneAccess
  /-- Performed. -/
  performed : Bool
  /-- Loaded or old values by lane, once performed. -/
  results : List (Nat × BitVec 128)
  /-- Its lanes were refused at the memory port and wait in a record that parked whole where it stands (R256). -/
  held : Bool
  /-- Cycle of its core's clock in which its results may return: its latency has passed (R194). -/
  due : Nat
  deriving DecidableEq, Repr

/-! ### Teams, barn and bins (R184, R188, R199, R236, R245–R251) -/

/-- A queue register (R184). -/
structure QueueReg where
  /-- BASE -/
  base : Nat
  /-- LOGN -/
  logn : Nat
  /-- HEAD -/
  head : Nat
  /-- COUNT -/
  count : Nat
  /-- PROD -/
  prod : BitVec 4
  /-- VALID -/
  valid : Bool
  /-- ALLOWj; default 0. -/
  allow : Table Nat
  /-- Records parked in QPUSH, oldest first: (slot, record). -/
  pushers : List (Nat × Nat)
  /-- Records parked in QPOP, oldest first. -/
  poppers : List (Nat × Nat)
  deriving DecidableEq, Repr

/-- A queue register that no QINIT has written. -/
def QueueReg.blank : QueueReg := ⟨0, 0, 0, 0, 0, false, [], [], []⟩

/-- What a path record signed (R199): the instruction word with its fixed source values, and where it issued. -/
structure Signature where
  /-- The instruction. -/
  instr : Instr
  /-- Source values in field order: A, B, then the descriptor registers. -/
  vals : List Word64
  /-- Group slot, path record, lanes signed. -/
  slot : Nat
  /-- Path record. -/
  prec : Nat
  /-- Cycle of the group's admission, which with the slot tells the group from a later one. -/
  age : Nat
  /-- Threads that signed. -/
  lanes : LaneMask
  /-- Where it issued. -/
  place : Place
  deriving DecidableEq, Repr

/-- A completed round of a convergence register (R199, R273): attributed to the path that completed it. -/
structure Round where
  /-- The operation, with its values and the completing path. -/
  sig : Signature
  /-- All threads of the completing path record in that cycle (R276). -/
  path : LaneMask
  /-- Cycle in which the round completed (R273). -/
  time : Nat
  /-- Order number on the core (R200). -/
  order : Nat
  deriving DecidableEq, Repr

/-- A convergence register (R188, R199). -/
structure CvReg where
  /-- Signing count; 0 when never set. -/
  count : Nat
  /-- Count that takes effect from the next round. -/
  nextCount : Option Nat
  /-- Signatures gathered, in signing order. -/
  sigs : List Signature
  /-- Lanes that have signed, by group slot. -/
  signed : Nat
  /-- Completed rounds not yet started. -/
  rounds : List Round
  deriving DecidableEq, Repr

/-- A convergence register never set. -/
def CvReg.blank : CvReg := ⟨0, none, [], 0, []⟩

/-- A waiting ACALLOC request (R189). -/
structure AcRequest where
  /-- Group slot. -/
  slot : Nat
  /-- Path record. -/
  prec : Nat
  /-- Team slot. -/
  team : Nat
  /-- Tiles asked for. -/
  n : Nat
  deriving DecidableEq, Repr

/-- A resident team (R236). -/
structure Team where
  /-- Context. -/
  ctx : Nat
  /-- Launch in progress. -/
  launch : Nat
  /-- Linear index in the grid (R333). -/
  pos : Nat
  /-- First address line of its scratchpad (R261). -/
  base : Nat
  /-- TeamScratchBytes. -/
  bytes : Nat
  /-- Physical tiles in grant order (R189, R264). -/
  tiles : List Nat
  /-- Minimum reservation. -/
  acmin : Nat
  /-- Maximum reservation. -/
  acmax : Nat
  /-- q0–q15; default `QueueReg.blank`. -/
  queues : Table QueueReg
  /-- cv0–cv15; default `CvReg.blank`. -/
  cvs : Table CvReg
  /-- The line map (R260): L1 set and way of each of its address lines from `base` on, in pinning order (R262). -/
  pins : List (Nat × Nat)
  /-- Scratchpad lines still to pin before its groups are admitted (R262). -/
  toPin : Nat
  /-- Cycle of admission. -/
  admitted : Nat
  /-- Its groups hold their slots and wait until its scratchpad is pinned and zero (R262). -/
  waiting : Bool
  deriving DecidableEq, Repr

/-- How a bundle was filed (R246). -/
inductive BundleKind where
  /-- Divergence spill. -/
  | spill
  /-- SPAWN. -/
  | spawn
  /-- WINNOW. -/
  | winnow
  deriving DecidableEq, Repr

/-- A barn bundle (R246): header fields and data lines. -/
structure Bundle where
  /-- PRES -/
  pres : LaneMask
  /-- LEFT -/
  left : LaneMask
  /-- KIND -/
  kind : BundleKind
  /-- ROLE -/
  role : Nat
  /-- TEAM -/
  team : Nat
  /-- RESUME with BLOCK, frames and DEPTH; the stack is empty. -/
  place : Place
  /-- Live masks used: VLIVE and SLIVE. -/
  vlive : BitVec 24
  /-- SLIVE -/
  slive : BitVec 8
  /-- Generator states of the filing group's lanes; default 0. -/
  gens : Table Word64
  /-- Vector columns: register and its lanes' elements at key lane; ascending registers. -/
  cols : List (Nat × Table Word32)
  /-- Uniform registers held, ascending. -/
  sregs : List (Nat × Word64)
  /-- L1 set and way of each of its lines (R247). -/
  pins : List (Nat × Nat)
  deriving DecidableEq, Repr

/-- The full key of a bin (R248). -/
structure BinKey where
  /-- How its records were filed. -/
  kind : BundleKind
  /-- RESUME and BLOCK, entry or continuation, with depth and frames for a spill. -/
  place : Place
  /-- WINNOW's 32-bit key value. -/
  value : Word32
  /-- Role. -/
  role : Nat
  /-- Team slot. -/
  team : Nat
  deriving DecidableEq, Repr

/-- A thread record in a bin: bundle and lane. -/
structure ThreadRef where
  /-- Bundle number. -/
  bundle : Nat
  /-- Lane of the bundle. -/
  lane : Nat
  deriving DecidableEq, Repr

/-- A filling bin (R248, R249). -/
structure Bin where
  /-- Its key. -/
  key : BinKey
  /-- Its records in filing order. -/
  refs : List ThreadRef
  /-- Cycle at which its timer falls due. -/
  due : Nat
  /-- Cycle in which its last record was filed. -/
  last : Nat
  deriving DecidableEq, Repr

/-- An entry of the launch list (R249). -/
structure LaunchEntry where
  /-- Key of the bin that closed. -/
  key : BinKey
  /-- Its records in filing order. -/
  refs : List ThreadRef
  deriving DecidableEq, Repr

/-- Issue state of a partition (R241). -/
structure Partition where
  /-- P.greedy -/
  greedy : Option Nat
  /-- P.yielded -/
  yielded : Option Nat
  deriving DecidableEq, Repr

/-! ### L1 and L2 (R16, R286–R291, R349, R352, R362–R368) -/

/-- A control-space line in a core's L1, tagged by context and line number ptr[61:7]. -/
structure L1Line where
  /-- Physical line number of its fill. -/
  pline : Nat
  /-- Line of its mirror home (R363). -/
  slot : Option Nat
  /-- Protection key of its leaf. -/
  key : Nat
  /-- Its bytes. -/
  data : Line
  /-- Bytes written and not published. -/
  dirty : ByteMask
  /-- Order of last use. -/
  used : Nat
  /-- Way of its set that holds it. -/
  way : Nat
  deriving DecidableEq, Repr

/-- An agent's state for a line (R364); I is absence. -/
inductive Moesi where
  /-- M -/
  | m
  /-- O -/
  | o
  /-- E -/
  | e
  /-- S -/
  | s
  /-- Pw -/
  | pw
  deriving DecidableEq, Repr

/-- A line held by a caching agent. -/
structure AgentLine where
  /-- State. -/
  state : Moesi
  /-- Its bytes. -/
  data : Line
  /-- In M the bytes written since ownership; in Pw the mask. -/
  mask : ByteMask
  /-- Class of service that filled it (R360). -/
  cos : Nat
  /-- Order of last use. -/
  used : Nat
  /-- Cores (of the module) that published into it as Pw since their last wide release or FENCE (R371). -/
  published : List Nat
  /-- Way of its set that holds it (R360). -/
  way : Nat
  deriving DecidableEq, Repr

/-- A team-scope release not yet promoted (R290). -/
structure Held where
  /-- Module of the holding core. -/
  module : Nat
  /-- Holding core. -/
  core : Nat
  /-- Context. -/
  ctx : Nat
  /-- Group slot for which it is held. -/
  slot : Nat
  deriving DecidableEq, Repr

/-- State of a directory entry (R366). -/
inductive DirState where
  /-- I -/
  | i
  /-- S -/
  | s
  /-- X -/
  | x
  /-- O -/
  | o
  /-- P -/
  | p
  deriving DecidableEq, Repr

/-- A directory entry at the primary home (R366). -/
structure DirEntry where
  /-- State. -/
  state : DirState
  /-- Owner in X and O. -/
  owner : Nat
  /-- Agents in S, ascending. -/
  sharers : List Nat
  /-- Masks of the Pw holders. -/
  masks : Table ByteMask
  /-- Sync mark. -/
  sync : Bool
  /-- Held mark. -/
  held : Option Held
  /-- Times of ownership transfers within the window, newest first (R368). -/
  transfers : List Nat
  /-- Contended flag. -/
  contended : Bool
  /-- Time of the last ownership transfer or Pw grant. -/
  lastMove : Nat
  /-- Line of its mirror home, once a request has named one (R363, R374). -/
  mirror : Option Nat
  deriving DecidableEq, Repr

/-- The entry of a line that no agent holds. -/
def DirEntry.idle : DirEntry := ⟨.i, 0, [], [], false, none, [], false, 0, none⟩


/-- A descriptor cached by a core (R349), newest first in its list. -/
structure CachedDesc where
  /-- Context. -/
  ctx : Nat
  /-- Object number. -/
  obj : Nat
  /-- Physical line it was read from. -/
  line : Nat
  /-- Its bytes. -/
  desc : DescWord
  deriving DecidableEq, Repr

/-- A translation cached at an L2 slice of a die (R352). -/
structure CachedXlat where
  /-- Die. -/
  die : Nat
  /-- OTBASE of the context's table. -/
  otbase : Nat
  /-- Object number. -/
  obj : Nat
  /-- ROOT and TOPLVL of the descriptor that it was walked from. -/
  root : Nat
  /-- TOPLVL -/
  toplvl : Nat
  /-- Line of the object whose slice holds it. -/
  line : Nat
  /-- First 4 KiB piece of its page: offset ÷ 4,096. -/
  page : Nat
  /-- 4 KiB pieces of its page. -/
  pages : Nat
  /-- Physical address of the page. -/
  pa : Nat
  /-- Protection key. -/
  key : Nat
  /-- MIRROR of the leaf. -/
  mirror : Nat
  /-- Node lines the walk read. -/
  nodes : List Nat
  /-- Cycle of the walk, which misses of the page in that cycle share. -/
  walked : Nat
  deriving DecidableEq, Repr

/-- A dropped translation under which requests to another module are outstanding (R378). -/
structure OldPage where
  /-- Die. -/
  die : Nat
  /-- OTBASE -/
  otbase : Nat
  /-- Object number. -/
  obj : Nat
  /-- First 4 KiB piece of the page. -/
  page : Nat
  /-- 4 KiB pieces. -/
  pages : Nat
  /-- Its physical address. -/
  pa : Nat
  /-- Requests and line operations of lower numbers are awaited. -/
  before : Nat
  deriving DecidableEq, Repr

/-! ### Engines (R196–R224, R268–R278) -/

/-- A matrix-check event (R61, R275). -/
structure MatEvent where
  /-- Output row. -/
  row : Nat
  /-- Output column. -/
  col : Nat
  /-- First K index of the chunk. -/
  k : Nat
  /-- Corrected by the retry. -/
  corrected : Bool
  deriving DecidableEq, Repr

/-- The chunks of an MMA or MMASP: they are read in ascending K across its engine time (R205, R274). -/
structure MmaRun where
  /-- Byte address of the team's scratchpad. -/
  base : Nat
  /-- Matrix-check policy (R275). -/
  policy : Nat
  /-- Disturbed chunk sums (R61). -/
  upsets : List ChunkUpset
  /-- Bitmap of MMASP; 0 for MMA (R206). -/
  bitmap : Nat
  /-- Next chunk. -/
  next : Nat
  /-- Cycle from which the chunks' reads are counted: the first cycle, later by the cycles of retries. -/
  since : Nat
  /-- Engine time without retries (R207). -/
  span : Nat
  /-- Elements as they stand after the chunks read, row by row. -/
  elems : List Nat
  /-- Elements whose tile bytes failed: they are not written. -/
  lost : List Nat
  deriving DecidableEq, Repr

/-- The operation running on a matrix engine: its results, written in its last cycle (R274). -/
structure MatrixOp where
  /-- The chunks of an MMA or MMASP still to be read (R274). -/
  run : Option MmaRun
  /-- Context. -/
  ctx : Nat
  /-- Launch. -/
  launch : Nat
  /-- Team slot. -/
  team : Nat
  /-- The team has ended: nothing is written. -/
  dead : Bool
  /-- Near-memory slot of an MMV, freed in the last cycle. -/
  near : Option Nat
  /-- Its round. -/
  round : Round
  /-- Last cycle. -/
  ends : Nat
  /-- Tile elements to write, by tile × 4,096 + row × 64 + column. -/
  tileWrites : List (Nat × Word32)
  /-- Scratchpad bytes to write, by core address. -/
  scratchWrites : List (Nat × List Byte)
  /-- Matrix-check events. -/
  events : List MatEvent
  /-- Physical tile. -/
  tile : Nat
  /-- Barrier credited in the last cycle: core address and bytes. -/
  credit : Option (Nat × Nat)
  /-- Ends with error status of this class (R428). -/
  error : Option Nat
  deriving DecidableEq, Repr

/-- A matrix engine (R200). -/
structure Matrix where
  /-- The operation it performs. -/
  running : Option MatrixOp
  /-- First cycle at which the engine is free. -/
  freeAt : Nat
  deriving DecidableEq, Repr

/-- An idle engine. -/
def Matrix.idle : Matrix := ⟨none, 0⟩

/-- Where an engine is held for a translation (R196, R356): the pointer, and the table entry at which its walk stopped
with the words of its descriptor, by physical address: a write to one of them is awaited. -/
structure Hold where
  /-- Pointer. -/
  ptr : Word64
  /-- Physical addresses of 8-byte words. -/
  stops : List Nat
  deriving DecidableEq, Repr

/-- A near-memory operation (R198, R277, R278). -/
structure Near where
  /-- Context. -/
  ctx : Nat
  /-- Launch. -/
  launch : Nat
  /-- Team slot. -/
  team : Nat
  /-- The team has ended: nothing is written. -/
  dead : Bool
  /-- Convergence register that it signed. -/
  cv : Nat
  /-- Its round. -/
  round : Round
  /-- Physical tile, unless .sp. -/
  tile : Option Nat
  /-- Barrier named: core address. -/
  bar : Option Nat
  /-- Its tile write occupies the matrix engine. -/
  writing : Bool
  /-- Held at this pointer for a translation (R196). -/
  hold : Option Hold
  /-- Cycle in which its request reached its stacks (R277). -/
  reached : Option Nat
  /-- Descriptors with which it was checked, by object (R349). -/
  descs : List (Nat × DescWord)
  deriving DecidableEq, Repr

/-- One side of a copied piece. -/
inductive CopyAddr where
  /-- Byte address of the issuing core's scratchpad. -/
  | scratch (addr : Nat)
  /-- A pointer. -/
  | ptr (p : Word64)
  /-- A physical address that a DRAIN translated before it was accepted, with its pointer (R435). -/
  | phys (pa : Nat) (p : Word64)
  /-- An address translated when its line operation was issued (R353): physical address and mirror home, with its pointer. -/
  | line (pa mirror : Nat) (p : Word64)
  deriving DecidableEq, Repr

/-- A piece of a line operation: consecutive bytes from one side to the other. -/
structure Piece where
  /-- Source. -/
  src : CopyAddr
  /-- Destination. -/
  dst : CopyAddr
  /-- Bytes. -/
  n : Nat
  deriving DecidableEq, Repr

/-- A line operation (R268). -/
structure LineOp where
  /-- Its pieces, in the order they are written. -/
  pieces : List Piece
  deriving DecidableEq, Repr

/-- A line operation that has been issued and not acknowledged (R270, R386, R388). -/
structure FlyOp where
  /-- The operation. -/
  op : LineOp
  /-- Bytes of its pieces, once a remote read has returned them. -/
  data : Option (List (List Byte))
  /-- Issue number. -/
  seq : Nat
  /-- Tags of its outstanding lower-deck requests, one for each line of another module; none for an operation within the module. -/
  tags : List Nat
  /-- Waits to be sent: in the engine's holding buffer for its window (R388). -/
  held : Bool
  deriving DecidableEq, Repr

/-- A copy in its slot (R198, R268–R271). -/
structure Copy where
  /-- Context. -/
  ctx : Nat
  /-- Launch. -/
  launch : Nat
  /-- Team slot. -/
  team : Nat
  /-- Group slot of the issuing group. -/
  slot : Nat
  /-- Path record. -/
  prec : Nat
  /-- The instruction. -/
  instr : Instr
  /-- Its word's address. -/
  pc : Word64
  /-- Weight of the launch (R269). -/
  weight : Nat
  /-- Acceptance order (R269). -/
  order : Nat
  /-- Cycle of acceptance. -/
  time : Nat
  /-- Descriptor values: A, B and the descriptor's registers. -/
  vals : List Word64
  /-- Line operations that it divides into. -/
  count : Nat
  /-- Line operations not yet issued, in order. -/
  todo : List LineOp
  /-- Line operations issued and not yet acknowledged, oldest first. -/
  flying : List FlyOp
  /-- Barrier credited at completion: core address. -/
  bar : Option Nat
  /-- Bytes credited. -/
  credit : Nat
  /-- First error class met, with its address. -/
  error : Option (Nat × Word64)
  /-- Bytes written correctly. -/
  written : Nat
  /-- Held at this pointer for a translation (R196). -/
  hold : Option Hold
  /-- Registers of a .mark copy on their target core, with the bytes still to write into each (R216):
  (logical core, slot, specifier, bytes). -/
  marks : List (Nat × Nat × Nat × Nat)
  /-- Held at acceptance until these registers are FULL (R216). -/
  waitFull : Bool
  /-- Held at acceptance behind an earlier DRAIN (R220). -/
  waitDrain : Bool
  /-- Source and destination overlap: an operation is sent only when every earlier one has been performed (R219). -/
  serial : Bool
  /-- Runs of source lines that an accepted DRAIN took: first line and count (R220). -/
  span : List (Nat × Nat)
  /-- Of a WCPY whose sides overlap, the source bytes at acceptance, for the operations not yet issued (R219). -/
  taken : List (Option (List (List Byte)))
  /-- Descriptors with which it was checked, by object (R349). -/
  descs : List (Nat × DescWord)
  deriving DecidableEq, Repr

/-- A collective step in its slot (R221–R224, R390). -/
structure StepOp where
  /-- Context. -/
  ctx : Nat
  /-- Job. -/
  job : Nat
  /-- Launch. -/
  launch : Nat
  /-- Team slot. -/
  team : Nat
  /-- Group slot. -/
  slot : Nat
  /-- Path record. -/
  prec : Nat
  /-- Cycle of the group's admission. -/
  age : Nat
  /-- The instruction. -/
  instr : Instr
  /-- Its word's address. -/
  pc : Word64
  /-- Descriptor values s(c) to s(c+4). -/
  vals : List Word64
  /-- Issue order on the module. -/
  order : Nat
  /-- Which run of its chain it belongs to: .first steps of the tag issued before it, itself counted. -/
  gen : Nat
  /-- Barrier: core address. -/
  bar : Option Nat
  /-- Count k of this step among the steps of its chain that name its peer (R390). -/
  index : Nat
  /-- The N elements it keeps, once its source has been read (R222). -/
  mine : Option (List Word32)
  /-- Elements read and not yet sent. -/
  send : List Word32
  /-- Elements sent. -/
  sent : Nat
  /-- Values received from the partner by index; default absent. -/
  got : Table Word32
  /-- Results, once formed. -/
  results : Option (List Word32)
  /-- Held values that a .last step has used, whose room is free when it completes (R389). -/
  prior : Nat
  /-- Pieces of OUT not yet acknowledged: byte offset, bytes, and the tag of an outstanding lower-deck request. -/
  outs : List (Nat × Nat × Option Nat)
  /-- Error class and address with which it ends. -/
  error : Option (Nat × Word64)
  /-- Held at this pointer for a translation (R196). -/
  hold : Option Hold
  /-- Descriptors with which it was checked, by object (R349). -/
  descs : List (Nat × DescWord)
  deriving DecidableEq, Repr

/-- Where a copy engine stands in its round (R269). -/
structure EngineRound where
  /-- Cycle in which the round began: copies accepted before it contend. -/
  start : Nat
  /-- Which of its four cores is served. -/
  core : Nat
  /-- Operations that the core may still issue; none when its turn has not begun. -/
  left : Option Nat
  deriving DecidableEq, Repr

/-! ### Lower-deck requests (R385–R388) -/

/-- What a lower-deck request serves. -/
inductive LowerKind where
  /-- The oldest read of a flying line operation of a copy slot: the operation's number in issue order. -/
  | copy (slot : Nat)
  /-- A lane of an outstanding ATT. -/
  | att (acc lane : Nat)
  /-- A piece of a collective step's OUT: its byte offset and length. -/
  | step (slot off len : Nat)
  deriving DecidableEq, Repr

/-- A lower-deck request. -/
structure LowerReq where
  /-- Core that holds what it serves. -/
  core : Nat
  /-- Context. -/
  ctx : Nat
  /-- Home module of the address. -/
  peer : Nat
  /-- Bytes charged to the window. -/
  bytes : Nat
  /-- It reads. -/
  reads : Bool
  /-- Physical address. -/
  pa : Nat
  /-- BMASK: its bytes of their line (R381). -/
  mask : ByteMask
  /-- Pointer of the access. -/
  ptr : Word64
  /-- What it serves. -/
  kind : LowerKind
  /-- x.ptime at which it was sent; none while it waits for its window. -/
  sent : Option Word64
  /-- Deadline: the send time plus FTO. -/
  deadline : Word64
  deriving DecidableEq, Repr

/-! ### Upper-deck requests (R385, R386) -/

/-- A request of an LDC or ATC to the home of its line, on another module (R385), by TAG. -/
structure UpperReq where
  /-- Core of the access. -/
  core : Nat
  /-- The access. -/
  acc : Nat
  /-- Context. -/
  ctx : Nat
  /-- Agent that misses. -/
  agent : Nat
  /-- The line, as its primary home names it. -/
  line : Nat
  /-- Line of its mirror home. -/
  slot : Option Nat
  /-- The line at the home to which it is sent. -/
  sent : Nat
  /-- Its operation: 7 a read request, 8 an ownership request (`Config.opcode`). -/
  op : Nat
  /-- It reads with the acquire bit (R372). -/
  acquire : Bool
  /-- Its answer once it has come: none, or the class of an error response. -/
  answer : Option (Option Nat)
  deriving DecidableEq, Repr

/-! ### Span routers and links (R379–R384, R397–R406) -/

/-- A packet (R381). -/
structure Packet where
  /-- Header flit. -/
  header : BitVec 512
  /-- Payload bytes. -/
  payload : List Byte
  deriving DecidableEq, Repr

/-- A port of a span router: its status register (R380) and its link (R379, R384). -/
structure Port where
  /-- EN -/
  en : Bool
  /-- GENCAP -/
  gencap : BitVec 2
  /-- GEN -/
  gen : Nat
  /-- STATE: 0 down, 1 training, 2 up, 3 failed. -/
  st : Nat
  /-- PEER -/
  peer : Nat
  /-- PPORT -/
  pport : Nat
  /-- RETRY -/
  retry : Nat
  /-- Cycle in which training began. -/
  since : Nat
  /-- GENCAP as this training took it up. -/
  cap : BitVec 2
  /-- Link sequence number of the next flit to send. -/
  tx : Nat
  /-- Link sequence number of the next flit to accept. -/
  rx : Nat
  /-- Flits sent and not acknowledged, oldest first: sequence number, channel, bytes. -/
  buf : List (Nat × Nat × BitVec 512)
  /-- Retries of the oldest of them. -/
  tries : Nat
  /-- Flits sent on a channel and not covered by a returned credit; default 0. -/
  used : Table Nat
  /-- Flits of a packet that has not arrived whole, by channel; default none. -/
  part : Table (List (BitVec 512))
  /-- Markers that wait for a credit of their channel, oldest first: channel, flit. -/
  wait : List (Nat × BitVec 512)
  /-- What it has put on the link, newest first: flits, those sent again, acknowledgements, and credits returned. -/
  out : List LinkFlit
  deriving DecidableEq, Repr

/-- A port at its reset values. -/
def Port.reset : Port := ⟨true, 3, 0, 0, 0, 0, 0, 0, 3, 0, 0, [], 0, [], [], [], []⟩

/-- A sweep of a router under a gang command (R398–R400). -/
structure Sweep where
  /-- Job swept; 0 for a quiesce, which sweeps nothing. -/
  job : Nat
  /-- GSEQ of the command. -/
  gseq : Nat
  /-- Cycle of the router's start. -/
  start : Nat
  /-- Started by a marker with no command for the job on this module. -/
  bare : Bool
  /-- Input channels closed: key 3 × input + lower-deck channel. -/
  closed : List Nat
  /-- Upper-deck and management markers arrived: key 7 × port + channel. -/
  markers : List Nat
  /-- Records of each input channel: key 3 × input + channel. -/
  counts : Table Nat
  /-- Some channel was closed by the time limit. -/
  limited : Bool
  /-- Packets of the job that came on a closed channel, head first: key 7 × input + channel (R406). -/
  late : Table (List Packet)
  deriving DecidableEq, Repr

/-- A span router. -/
structure Router where
  /-- Routing table; default 0. -/
  routes : Table Nat
  /-- Ports 0–8; default `Port.reset`. -/
  ports : Table Port
  /-- Input buffers, head first: key 7 × input + channel, input 9 the module's own injection; default empty. -/
  inputs : Table (List Packet)
  /-- Sweeps in progress, and those whose channels stay closed until the restore; one a job. -/
  sweeps : List Sweep
  deriving DecidableEq, Repr

/-- A router at reset. -/
def Router.reset : Router := ⟨[], [], [], []⟩

/-- The gang command being served (R395–R407). -/
structure Gang where
  /-- Sequence number. -/
  seq : Nat
  /-- OP -/
  op : Nat
  /-- JOB -/
  job : Nat
  /-- GSEQ -/
  gseq : Nat
  /-- START -/
  start : Word64
  /-- GRAN -/
  gran : Word64
  /-- SPMAP -/
  spmap : BitVec 24
  /-- SPEN -/
  spen : Bool
  /-- It has started on this module. -/
  began : Bool
  /-- Records swept or replayed. -/
  nrec : Nat
  deriving DecidableEq, Repr

/-- An island's control entry (R450). -/
structure Island where
  /-- FTGT -/
  ftgt : Nat
  /-- FCUR -/
  fcur : Nat
  /-- VCUR -/
  vcur : Nat
  /-- CAPPED -/
  capped : Bool
  /-- THERM -/
  therm : Bool
  /-- PWR -/
  pwr : Nat
  deriving DecidableEq, Repr

/-- An island's entry at reset. -/
def Island.reset (i : Nat) : Island :=
  if i < 16 then ⟨80, 80, 0, false, false, 0⟩ else if i < 20 then ⟨40, 40, 0, false, false, 0⟩ else ⟨0, 0, 0, false, false, 0⟩

/-- A measurement report (R449): the verifier's nonce, the eight slots, and the signature with the device key. -/
structure SpdmReport where
  /-- Nonce. -/
  nonce : BitVec 256
  /-- Slots 0–7. -/
  slots : List (BitVec 384)
  /-- Signature. -/
  signature : BitVec 768
  deriving DecidableEq, Repr

/-- An entry of a context's window table (R387). -/
structure Window where
  /-- WIN -/
  win : Nat
  /-- OUT -/
  out : Nat
  /-- BASE -/
  base : Nat
  /-- EMIN -/
  emin : Nat
  /-- EACK -/
  eack : Nat
  /-- ESTART -/
  estart : Word64
  deriving DecidableEq, Repr

/-- A window entry at its reset values. -/
def Window.reset : Window := ⟨65536, 0, 0xFFFFFFFF, 0xFFFFFFFF, 0, 0⟩

/-- A collective chain of a context (R222, R223, R389, R390). -/
structure Chain where
  /-- Held values. -/
  held : Option (List Word32)
  /-- The run of the chain that holds them. -/
  heldGen : Nat
  /-- .first steps issued so far. -/
  gen : Nat
  /-- Class with which its steps end until the next .first step. -/
  broken : Option Nat
  /-- Steps issued so far by PEER; default 0. -/
  counts : Table Nat
  deriving DecidableEq, Repr

/-- A chain that has not begun. -/
def Chain.blank : Chain := ⟨none, 0, 0, none, []⟩

/-! ### Host links and the scale-out network (R409–R415) -/

/-- A work request of a queue pair that has not completed (R225, R413). -/
structure NetReq where
  /-- The queue pair's request sequence. -/
  seq : Nat
  /-- Verb. -/
  verb : RdmaVerb
  /-- Context. -/
  ctx : Nat
  /-- Launch. -/
  launch : Nat
  /-- Core. -/
  core : Nat
  /-- Group slot. -/
  slot : Nat
  /-- Path record. -/
  prec : Nat
  /-- Cycle of the group's admission. -/
  age : Nat
  /-- The word's address. -/
  pc : Word64
  /-- Barrier: core address. -/
  bar : Option Nat
  /-- Completion word; none for zero. -/
  word : Option Word64
  /-- Local pointer. -/
  ptr : Word64
  /-- Remote address. -/
  remote : Word64
  /-- Length. -/
  len : Nat
  /-- Remote key. -/
  key : Word32
  /-- Immediate. -/
  imm : Word32
  /-- PSN of its first packet, once it has been sent. -/
  psn : Option Nat
  /-- Its packets, kept until they are acknowledged. -/
  packets : List RdmaPacket
  /-- Response bytes placed (.read). -/
  placed : Nat
  /-- Response bytes that wait to be placed, each piece within a line: offset and bytes. -/
  place : List (Nat × List Byte)
  /-- Held at this pointer for a translation (R196, R356). -/
  hold : Option Hold
  /-- x.ptime at which its packets went out. -/
  sent : Word64
  /-- Descriptors with which it was checked, by object (R349). -/
  descs : List (Nat × DescWord)
  deriving DecidableEq, Repr

/-- A queue pair (R412) with its requests and the packets placed ahead of EPSN. -/
structure QueuePair where
  /-- VALID -/
  valid : Bool
  /-- STATE: 0 reset, 1 ready, 2 error. -/
  st : Nat
  /-- MTU -/
  mtu : Nat
  /-- PD -/
  pd : Nat
  /-- JOB -/
  job : Nat
  /-- RQPN -/
  rqpn : Nat
  /-- PORT -/
  port : Nat
  /-- SPSN -/
  spsn : Nat
  /-- EPSN -/
  epsn : Nat
  /-- DST -/
  dst : BitVec 128
  /-- RCQ -/
  rcq : Word64
  /-- RCN -/
  rcn : Nat
  /-- RBUF -/
  rbuf : Word32
  /-- Requests accepted. -/
  reqs : Nat
  /-- Messages received with a completion entry. -/
  msgs : Nat
  /-- Requests not completed, oldest first. -/
  out : List NetReq
  /-- Requests whose completion word is held for a translation (R196), with their status. -/
  ends : List (NetReq × Nat)
  /-- Packets placed and not yet passed by EPSN, by PSN (the bitmap of R415). -/
  seen : Table RdmaPacket
  /-- Resends since the last progress. -/
  tries : Nat
  /-- BASE: smallest time from sending to acknowledgement, in ns (R415). -/
  base : Nat
  /-- x.ptime of the last progress, resend, or first packet to be awaited. -/
  since : Word64
  deriving DecidableEq, Repr

/-- A queue pair at reset. -/
def QueuePair.reset : QueuePair := ⟨false, 0, 0, 0, 0, 0, 0, 0, 0, 0, 0, 0, 0, 0, 0, [], [], [], 0, 0xFFFFFFFF, 0⟩

/-- What the module gives the scale-out network. -/
inductive NetOut where
  /-- A request packet of a queue pair. -/
  | request (qp : Nat) (packet : RdmaPacket)
  /-- An acknowledgement or response of a queue pair. -/
  | answer (qp : Nat) (ack : RdmaAck)
  deriving DecidableEq, Repr

/-! ### A core -/

/-- A core (R13, R14) and what it holds. -/
structure Core where
  /-- Resident groups by slot 0–63. -/
  groups : Table Group
  /-- Resident teams by team slot 0–63. -/
  teams : Table Team
  /-- Issue state of partitions 0–3. -/
  parts : Table Partition
  /-- Partition served last by the uniform unit (R242). -/
  uniLast : Nat
  /-- Bundles of the barn by number. -/
  bundles : Table Bundle
  /-- Number of the next bundle. -/
  nextBundle : Nat
  /-- Filling bins 0–63. -/
  bins : Table Bin
  /-- Launch list, head first. -/
  launchList : List LaunchEntry
  /-- One more than the cycle of the last launch from the list; 0 when there was none (R250). -/
  launchedAt : Nat
  /-- Records parked for barn room, in the order they parked (R254): (slot, record). -/
  barnWait : List (Nat × Nat)
  /-- Outstanding accesses by number, in issue order. -/
  accs : Table Access
  /-- Number of the next access. -/
  nextAcc : Nat
  /-- Scratchpad bytes by core address; default 0. -/
  scratch : Table Byte
  /-- Granules of 16 bytes whose barrier mark is set (R176), by core address ÷ 16. -/
  marks : Table Bool
  /-- Accumulator elements by tile × 4,096 + row × 64 + column (R17); default 0. -/
  tiles : Table Word32
  /-- Ways pinned for scratchpad in each set (R262), bit w for way w; default 0. -/
  pins : Table (BitVec 16)
  /-- Ways pinned for barn lines in each set (R247); default 0. -/
  barnPins : Table (BitVec 16)
  /-- Pin cursor (R262). -/
  pinCursor : Nat
  /-- Cycle of the core's clock from which a pipe is free; key 2 × partition + pipe; default 0 (R242). -/
  pipes : Table Nat
  /-- Cached lines: key context × 2^55 + line number. -/
  l1 : Table L1Line
  /-- Counter of L1 uses. -/
  l1Use : Nat
  /-- FRESH by context (R288); default 0. -/
  fresh : Table Sheaf
  /-- CARRY by context (R288); default 0. -/
  carry : Table Sheaf
  /-- Physical lines this core holds for promotion, oldest first (R290). -/
  held : List Nat
  /-- Cached descriptors, most recently used first (R349). -/
  descs : List CachedDesc
  /-- Waiting ACALLOC requests, oldest first (R189). -/
  acWait : List AcRequest
  /-- Order number of the next completed round (R200). -/
  nextRound : Nat
  /-- FENCESC completions at the last device tick and the last system tick (R170): (tick, count). -/
  scSeq : Table Nat
  /-- Matrix engine. -/
  matrix : Matrix
  /-- Near-memory operations by slot 0–15. -/
  nears : Table Near
  /-- Copies by slot 0–127. -/
  copies : Table Copy
  /-- Acceptance order of the next copy (R269). -/
  nextCopy : Nat
  /-- Copy after which the engine's rotation goes on (R269). -/
  rotate : Nat
  /-- Collective steps by slot 0–31. -/
  steps : Table StepOp
  /-- Invalidations by selective acquires (R289): lines that hit the sheaf. -/
  hitCount : Nat
  /-- Barrier objects updated in this cycle, by core address: whether their phase ends is decided on the sum of the
  cycle's updates (R178). -/
  barDue : List Nat
  deriving DecidableEq, Repr

/-- A core with no group. -/
def Core.idle : Core :=
  { groups := [], teams := [], parts := [], uniLast := 3, bundles := [], nextBundle := 0, bins := [],
    launchList := [], launchedAt := 0, barnWait := [], accs := [], nextAcc := 0, scratch := [], marks := [], tiles := [], pins := [],
    barnPins := [], pinCursor := 0, pipes := [], l1 := [], l1Use := 0, fresh := [], carry := [], held := [], descs := [],
    acWait := [], nextRound := 0, scSeq := [], matrix := Matrix.idle, nears := [], copies := [],
    nextCopy := 0, rotate := 0, steps := [], hitCount := 0, barDue := [] }

/-! ### Contexts, launches and queues (R323–R336) -/

/-- STATE of a context (R323). -/
inductive CtxState where
  /-- free -/
  | free
  /-- resident -/
  | resident
  /-- saving -/
  | saving
  /-- saved -/
  | saved
  /-- restoring -/
  | restoring
  /-- ending -/
  | ending
  deriving DecidableEq, Repr

/-- The RO fields of a log header that the module holds (R424). -/
structure LogRegs where
  /-- WIDX -/
  widx : Word64
  /-- DROP -/
  drop : Nat
  /-- DEMOTE -/
  demote : Nat
  /-- MCDET -/
  mcdet : Nat
  /-- MCCOR -/
  mccor : Nat
  deriving DecidableEq, Repr

/-- A context-table entry (R323) with the context's PKR (R230) and log registers. -/
structure Context where
  /-- VALID -/
  valid : Bool
  /-- STATE -/
  state : CtxState
  /-- PREQ -/
  preq : Bool
  /-- RREQ -/
  rreq : Bool
  /-- JOB -/
  job : BitVec 16
  /-- COS -/
  cos : BitVec 4
  /-- CLMASK -/
  clmask : BitVec 16
  /-- SAVE -/
  save : Word64
  /-- FLOG -/
  flog : Word64
  /-- CMAP -/
  cmap : Word64
  /-- PKR -/
  pkr : Word64
  /-- Log registers. -/
  log : LogRegs
  /-- VALID was cleared while saving or restoring: the context ends when that is done (R324). -/
  endAfter : Bool
  /-- Its part of each core is held apart, on core 512 × (context + 1) + logical core number: the context is saved, or
  ending with its teams stopped. -/
  away : Bool
  /-- Its save header is marked failed (R428). -/
  saveFailed : Bool
  deriving DecidableEq, Repr

/-- Log registers at zero. -/
def LogRegs.zero : LogRegs := ⟨0, 0, 0, 0, 0⟩

/-- A context-table entry at reset. -/
def Context.reset : Context :=
  ⟨false, .free, false, false, 0, 0, 0, 0, 0, 0xFEDCBA9876543210, 0, LogRegs.zero, false, false, false⟩

/-- A role of a launch record (R328). -/
structure Role where
  /-- Groups. -/
  ng : Nat
  /-- Register budget. -/
  budget : Nat
  deriving DecidableEq, Repr

/-- Where a launch stands. -/
inductive LaunchState where
  /-- Checked; waiting for its dependence counters (R330). -/
  | waitingDeps
  /-- Dispatched: its teams are admitted one by one (R331). -/
  | dispatching
  /-- Every team admitted. -/
  | admitted
  deriving DecidableEq, Repr

/-- A launch in progress: the fields of its record (R327). -/
structure Launch where
  /-- Queue. -/
  queue : Nat
  /-- Queue object named when it dispatched. -/
  qptr : Word64
  /-- LOGN of the queue then. -/
  logn : Nat
  /-- Sequence number of its slot. -/
  seq : Nat
  /-- Context. -/
  ctx : Nat
  /-- Pointer of the slot. -/
  slot : Word64
  /-- ENTRY -/
  entry : Word64
  /-- TRAPB -/
  trapb : Word64
  /-- GRID -/
  grid : Word64
  /-- Roles present. -/
  roles : List Role
  /-- SCRB -/
  scrb : Nat
  /-- ACMIN -/
  acmin : Nat
  /-- ACMAX -/
  acmax : Nat
  /-- WEIGHT -/
  weight : Nat
  /-- PRIO -/
  prio : Nat
  /-- MCHECK -/
  mcheck : Nat
  /-- GBAR -/
  gbar : Bool
  /-- PREEMPT -/
  preempt : Bool
  /-- DEMOTE -/
  demote : Bool
  /-- ZT -/
  zt : Bool
  /-- BINTIMER -/
  bintimer : Nat
  /-- Dependence counters: pointer and target. -/
  deps : List (Word64 × Word64)
  /-- SIGPTR -/
  sigptr : Word64
  /-- State. -/
  state : LaunchState
  /-- Time at which it became dispatching (R331). -/
  since : Nat
  /-- Linear index of the next team to admit. -/
  nextTeam : Nat
  /-- A GBAR launch that was served and could not be placed (R331). -/
  gwait : Bool
  /-- Teams admitted and not yet ended. -/
  live : Nat
  /-- Cores its teams have used (R335). -/
  cores : List Nat
  deriving DecidableEq, Repr

/-- A queue-table entry (R325) with the scheduler's view of it. -/
structure Queue where
  /-- QPTR -/
  qptr : Word64
  /-- LOGN -/
  logn : BitVec 4
  /-- CTX -/
  ctx : BitVec 6
  /-- EN -/
  en : Bool
  /-- TAIL as last read (R326). -/
  tail : Nat
  /-- Sequence number of the next slot to check. -/
  next : Nat
  /-- HEAD (R325). -/
  head : Nat
  /-- Slots completed or refused and not yet passed by HEAD. -/
  done : List Nat
  deriving DecidableEq, Repr

/-- A queue-table entry at reset. -/
def Queue.reset : Queue := ⟨0, 0, 0, false, 0, 0, 0, []⟩

/-- An object root entry (R346). -/
structure Root where
  /-- OTBASE -/
  otbase : Nat
  /-- ONUM -/
  onum : Nat
  deriving DecidableEq, Repr

/-- A resume word (R356). -/
abbrev ResumeWord := Word64

/-- A migration entry (R358) with the state of snapshot mode (R435–R438). -/
structure Migration where
  /-- SRC -/
  src : Nat
  /-- DST -/
  dst : Nat
  /-- LINES -/
  lines : Nat
  /-- PTR -/
  ptr : Nat
  /-- MODE -/
  mode : Bool
  /-- EN -/
  en : Bool
  /-- DONE -/
  done : Bool
  /-- Lines copied early in snapshot mode. -/
  early : List Nat
  /-- Snapshot owner: core and copy slot of the DRAIN. -/
  owner : Option (Nat × Nat)
  deriving DecidableEq, Repr

/-- A migration entry at reset. -/
def Migration.reset : Migration := ⟨0, 0, 0, 0, false, false, false, [], none⟩

/-! ### The module -/

/-- A record about to issue a word in this cycle. -/
structure IssueRef where
  /-- Core. -/
  core : Nat
  /-- Group slot. -/
  slot : Nat
  /-- Path record. -/
  prec : Nat
  deriving DecidableEq, Repr

/-- Where a cycle stands: what comes in it before its words, the words, and what comes after them. -/
inductive Turn where
  /-- The cycle is over. -/
  | over
  /-- What comes before the words has been listed: words of the clusters listed come next. -/
  | words (on : List Nat)
  /-- The words have been listed: next come those that acquire, then the events. -/
  | rest (acquires : List IssueRef) (events : List Instr)
  deriving DecidableEq, Repr

/-- The state of one module, of the domain's memory and coherence, and of what the module has asked of the outside. -/
structure State where
  /-- Inputs of the outside world and events of outstanding work, in the order in which they come about. -/
  agenda : List Instr
  /-- Inputs of the outside world that arrive later, each with the cycle in which it does. -/
  inputs : List (Nat × Instr)
  /-- Where the current cycle stands: the model's own, a cycle's place in the order of R108, R233, R279, R299 and R376. -/
  turn : Turn
  /-- Words that issue in the current cycle, in order (R241). -/
  issuing : List IssueRef
  /-- The record whose word is executed. -/
  cur : Option IssueRef
  /-- Counter of free values: the model's own. -/
  freeCtr : Nat
  /-- Cycles of the nominal 4.0 GHz clock since module reset. -/
  time : Nat
  /-- x.ptime -/
  ptime : Word64
  /-- Device heartbeat ticks, x.heartbeat[31:0]. -/
  deviceTicks : Word32
  /-- System heartbeat ticks, x.heartbeat[63:32]. -/
  systemTicks : Word32
  /-- x.clock of each cluster; default 0. -/
  clocks : Table Word64
  /-- Remainder of each cluster's clock against the nominal clock, in units of its frequency ratio; default 0. -/
  clockAcc : Table Nat
  /-- x.module -/
  moduleId : BitVec 8
  /-- Cores by core number; default `Core.idle`. -/
  cores : Table Core
  /-- Context table by context; default `Context.reset`. -/
  ctxs : Table Context
  /-- Launches in progress. -/
  launches : Table Launch
  /-- Number of the next launch. -/
  nextLaunch : Nat
  /-- Queue table; default `Queue.reset`. -/
  queues : Table Queue
  /-- Placement cursor (R333). -/
  placeCursor : Nat
  /-- Object root table; default zero. -/
  roots : Table Root
  /-- Bytes of memory by 56-bit physical address; default 0. -/
  mem : Table Byte
  /-- Physical lines marked failed (R428). -/
  failed : List Nat
  /-- Lines of caching agents: key agent × 2^49 + physical line. -/
  l2 : Table AgentLine
  /-- Counter of L2 uses. -/
  l2Use : Nat
  /-- Directory entries at primary homes by physical line; default `DirEntry.idle`. -/
  dir : Table DirEntry
  /-- Directory entries as the mirror homes hold them (R374). -/
  mirrorDir : Table DirEntry
  /-- Copy engines by number; default none, an engine between rounds. -/
  engines : Table EngineRound
  /-- Lower-deck requests by TAG. -/
  lower : Table LowerReq
  /-- Upper-deck requests of loads and atomics by TAG (R385). -/
  upper : Table UpperReq
  /-- The next TAG. -/
  nextTag : Nat
  /-- Packets of the module that wait for room at their router, oldest first: router, channel, packet (R384). -/
  outbox : List (Nat × Nat × Packet)
  /-- Span routers 0–7; default `Router.reset`. -/
  routers : Table Router
  /-- Packets delivered to this module whose operation no rule of the module performs, newest first. -/
  delivered : List Packet
  /-- Span map: bits [3s+2:3s] name the router that carries span s (R395). -/
  spmap : BitVec 24
  /-- Jobs whose injection is stopped by a gang command (R397). -/
  stopped : List Nat
  /-- A quiesce has stopped injection for every job (R407). -/
  quiet : Bool
  /-- Window tables: key context × 256 + peer; default `Window.reset`. -/
  windows : Table Window
  /-- FTO (R386). -/
  fto : Nat
  /-- Chains: key context × 256 + tag; default `Chain.blank`. -/
  chains : Table Chain
  /-- Issue order of the next collective step. -/
  nextStep : Nat
  /-- Step data that arrived before its step was issued (R390). -/
  stepInbox : List StepPacket
  /-- Cached translations, most recently used first. -/
  xlats : List CachedXlat
  /-- Pages of which a die makes no new translation yet (R378). -/
  oldPages : List OldPage
  /-- TSEQ -/
  tseq : Word64
  /-- TDONE -/
  tdone : Word64
  /-- TAG that the next request had, and the cycle, when TSEQ was last written: earlier accesses are awaited (R353). -/
  tseqMark : Nat × Nat
  /-- Resume words by context; default 0. -/
  resume : Table ResumeWord
  /-- Migration entries by controller × 8 + entry; default `Migration.reset`. -/
  migs : Table Migration
  /-- Bytes of the context save areas, the granary and the snapshot-drain region of tier-2 (R22); default 0. -/
  carves : Table Nat
  /-- Region entries (R411) as their 32 bytes; default 0. -/
  regions : Table (BitVec 256)
  /-- Queue pairs; default `QueuePair.reset`. -/
  qps : Table QueuePair
  /-- What the module has given the network, newest first. -/
  netOut : List NetOut
  /-- Frames passed to the host cores (R410), newest first: Ethernet port and bytes. -/
  hostFrames : List (Nat × List Byte)
  /-- Negotiated rates of the Ethernet ports in Gb/s (R410); default 0, down. -/
  ethernet : Table Nat
  /-- Negotiated links of the host ports (R409). -/
  hostLinks : Table HostLink
  /-- Way masks by class of service; default 0xFFFF (R360). -/
  cosMasks : Table (BitVec 16)
  /-- Class of service of host-core fills. -/
  hostCos : BitVec 4
  /-- Bytes that the last host access was answered with. -/
  hostData : List Byte
  /-- LIVE mask (R431). -/
  live : BitVec 256
  /-- MEPOCH -/
  mepoch : Word64
  /-- Module error log pointer, and the context whose object space it names. -/
  errLog : Word64
  /-- Context of the error log pointer. -/
  errLogCtx : Nat
  /-- Registers of the module error log. -/
  modLog : LogRegs
  /-- Retired 4 KiB frames by memory controller, the newest first; default none (R429). -/
  retired : Table (List Nat)
  /-- Times of the corrected errors of a frame, newest first; default none. -/
  corrected : Table (List Word64)
  /-- Slots of the gang queue; default 0 (R395). -/
  gangSlots : Table (BitVec 1024)
  /-- HEAD of the gang queue. -/
  gangHead : Nat
  /-- TAIL of the gang queue. -/
  gangTail : Nat
  /-- The command being served. -/
  gang : Option Gang
  /-- Boot status word (R448). -/
  bootStatus : Nat
  /-- Measurement slots; default 0 (R449). -/
  slots : Table (BitVec 384)
  /-- Reports given, newest first. -/
  reports : List SpdmReport
  /-- Islands' control entries; default `Island.reset`. -/
  islands : Table Island
  /-- PCAP in W (R452). -/
  pcap : Nat
  deriving DecidableEq, Repr

/-- The module right after reset: no context valid, no group resident, memory cleared (R448). -/
def State.reset : State :=
  { agenda := [], inputs := [], turn := .over, issuing := [], cur := none, freeCtr := 0, time := 0, ptime := 0, deviceTicks := 0, systemTicks := 0,
    clocks := [], clockAcc := [], moduleId := 0, cores := [], ctxs := [], launches := [], nextLaunch := 0,
    queues := [], placeCursor := 0, roots := [], mem := [], failed := [], l2 := [], l2Use := 0, dir := [],
    mirrorDir := [], engines := [], lower := [], upper := [], nextTag := 0, outbox := [], routers := [], delivered := [], spmap := 0xFAC688, stopped := [], quiet := false, windows := [], fto := 100000, chains := [], nextStep := 0,
    stepInbox := [], xlats := [], oldPages := [], tseq := 0, tdone := 0, tseqMark := (0, 0), resume := [], migs := [], carves := [], regions := [], qps := [], netOut := [], hostFrames := [], ethernet := [], hostLinks := [], cosMasks := [], hostCos := 0, hostData := [],
    live := 0, mepoch := 0, errLog := 0, errLogCtx := 0, modLog := LogRegs.zero, retired := [], corrected := [],
    gangSlots := [], gangHead := 0, gangTail := 0, gang := none, bootStatus := 0, slots := [], reports := [], islands := [], pcap := 3000 }

end Sys2Proof.Machine
end

