-- ==== Sys2Proof/Machine/Operands.lean ====
section
/-! DEFINITION. Sys2Proof/Machine/Operands.lean: register specifiers as sources and destinations (R26–R31, R92), and a
group's full/empty states. -/

namespace Sys2Proof.Machine

/-! ### A group's registers -/

/-- Lane's element of a vector register. -/
def Group.vreg (g : Group) (r lane : Nat) : Word32 := tabGet 0 g.v (32 * r + lane)

/-- Write a lane's element of a vector register. -/
def Group.setVreg (g : Group) (r lane : Nat) (x : Word32) : Group := { g with v := tabSet 0 g.v (32 * r + lane) x }

/-- A uniform register. -/
def Group.sreg (g : Group) (r : Nat) : Word64 := tabGet 0 g.s r

/-- Write a uniform register. -/
def Group.setSreg (g : Group) (r : Nat) (x : Word64) : Group := { g with s := tabSet 0 g.s r x }

/-- The lane mask of a predicate; p0 reads true (R26). -/
def Group.pred (g : Group) (i : Nat) : LaneMask := if i = 0 then BitVec.allOnes 32 else tabGet 0 g.p i

/-- Write the bits of some lanes of a predicate; p0 discards them (R26, R30). -/
def Group.setPred (g : Group) (i : Nat) (lanes bits : LaneMask) : Group :=
  if i = 0 then g else { g with p := tabSet 0 g.p i ((g.pred i &&& ~~~lanes) ||| (bits &&& lanes)) }

/-- A path record. -/
def Group.prec (g : Group) (i : Nat) : PathRec := tabGet PathRec.free g.recs i

/-- Replace a path record. -/
def Group.setPrec (g : Group) (i : Nat) (q : PathRec) : Group := { g with recs := tabSet PathRec.free g.recs i q }

/-- Full/empty state of a register by its specifier code; predicates and zero have none (R31). -/
def Group.feOf (g : Group) (c : Nat) : FE := tabGet .full g.fe c

/-- Set a full/empty state. -/
def Group.setFe (g : Group) (c : Nat) (x : FE) : Group := { g with fe := tabSet .full g.fe c x }

/-- Every thread the group holds. -/
def Group.lanes (g : Group) : LaneMask :=
  g.trapWaits.foldl (fun m q => m ||| q.lanes) (g.recs.foldl (fun m q => m ||| q.2.lanes) 0)

/-! ### Sources (R28) -/

/-- The value of a source in a lane; a v register gives 32 bits, or its pair when two are taken (R27). -/
def Group.read (g : Group) (c : BitVec 8) (n lane : Nat) : Word64 :=
  if isV c then
    let lo := (g.vreg c.toNat lane).zeroExtend 64
    if n = 2 then ((g.vreg (c.toNat + 1) lane).zeroExtend 64 <<< 32) ||| lo else lo
  else if isS c then g.sreg (c.toNat - 0xC0)
  else if isP c then (g.pred (c.toNat - 0xF0)).zeroExtend 64
  else if c.toNat = 0xF9 then BitVec.ofNat 64 lane
  else 0

/-- Four consecutive vector registers as 128 bits (R75). -/
def Group.read128 (g : Group) (c : BitVec 8) (lane : Nat) : BitVec 128 :=
  (g.read (c + 2) 2 lane).zeroExtend 128 <<< 64 ||| (g.read c 2 lane).zeroExtend 128

/-- A predicate's bit in a lane. -/
def Group.predBit (g : Group) (i lane : Nat) : Bool := (g.pred i).getLsbD lane

/-- The bit of a specifier that names a predicate or zero (R94, R136). -/
def Group.bitOf (g : Group) (c : BitVec 8) (lane : Nat) : Bool :=
  if isP c then g.predBit (c.toNat - 0xF0) lane else false

/-- GUARD: the lanes where the guard predicate is true after the negate bit (R9, R71). -/
def Group.guardMask (g : Group) (guard : BitVec 4) : LaneMask :=
  let m := g.pred (fieldOf guard 0 3)
  if guard.getLsbD 3 then ~~~m else m

/-! ### Destinations (R28, R29, R92) -/

/-- Write a value to a v register, or to a pair. -/
def Group.writeV (g : Group) (r n lane : Nat) (x : Word64) : Group :=
  let g := g.setVreg r lane (x.setWidth 32)
  if n = 2 then g.setVreg (r + 1) lane ((x >>> 32).setWidth 32) else g

/-- A result as an s register holds it: 64 bits, or 32 extended by sign or zero (R92, R110). -/
def widen (n : Nat) (sx : Bool) (x : Word64) : Word64 :=
  if n = 2 then x else if sx then (x.setWidth 32).signExtend 64 else (x.setWidth 32).zeroExtend 64

/-- Write the results of the Active lanes to a destination: per lane to a v register or pair, once to an s register,
bit 0 to a predicate, nowhere to zero. -/
def Group.write (g : Group) (c : BitVec 8) (n : Nat) (sx : Bool) (act : LaneMask) (f : Nat → Word64) : Group :=
  if isV c then (lanesOf act).foldl (fun g l => g.writeV c.toNat n l (f l)) g
  else if isS c then g.setSreg (c.toNat - 0xC0) (widen n sx (f (lowestLane act)))
  else if isP c then g.setPred (c.toNat - 0xF0) act (maskOf ((lanesOf act).filter (fun l => (f l).getLsbD 0)))
  else g

/-- Write one value to a uniform destination: an s register, a predicate in every Active lane, or zero. -/
def Group.writeUni (g : Group) (c : BitVec 8) (act : LaneMask) (x : Word64) : Group :=
  g.write c 2 false act (fun _ => x)

end Sys2Proof.Machine

namespace Sys2Proof

open Machine

/-! ### Sources of format A at the width of TYPE (R77, R92) -/

/-- Source A of a lane at the width of TYPE. -/
def FmtA.valA (f : FmtA) (g : Group) (lane : Nat) : Word64 := g.read f.a (tyRegs f.ty) lane
/-- Source B. -/
def FmtA.valB (f : FmtA) (g : Group) (lane : Nat) : Word64 := g.read f.b (tyRegs f.ty) lane
/-- Source C. -/
def FmtA.valC (f : FmtA) (g : Group) (lane : Nat) : Word64 := g.read f.c (tyRegs f.ty) lane
/-- .sat -/
def FmtA.sat (f : FmtA) : Bool := f.mod.getLsbD 3

end Sys2Proof
end

