-- ==== Sys2Proof/Machine/Flags.lean ====
section
/-! DEFINITION. Sys2Proof/Machine/Flags.lean: the predicates that arithmetic writes beside its result (R94), and truth
values of predicates (R30, R133, R136). The module keeps no other flags (R51, R92). -/

namespace Sys2Proof.Machine

/-- IADDC's carry and ISUBB's borrow out (R94). -/
def carryOut (sub : Bool) (w : Nat) (e : Int) : Bool := if sub then e < 0 else (2 : Int) ^ w ≤ e

/-- Some element's exact result lies outside its range (R94). -/
def anyOutOfRange (t : BitVec 4) (f : Int → Int → Int) (a b : Word64) : Bool :=
  (List.range (tyElems t)).any (fun i => !inRange (elemWidth t) (tySigned t) (f (elem a i t) (elem b i t)))

/-- Bit (a + 2b) of a PLOP truth table (R136). -/
def lutBit (table : Nat) (a b : Bool) : Bool := table.testBit ((if a then 1 else 0) + 2 * (if b then 1 else 0))

/-- VOTE's result over the Active lanes where the value is true (R133). -/
def voteResult (mode : Nat) (v act : LaneMask) : Nat :=
  match mode with
  | 0 => if v = act then 1 else 0
  | 1 => if v ≠ 0 then 1 else 0
  | 2 => if v = act ∨ v = 0 then 1 else 0
  | 3 => v.toNat
  | 4 => laneCount v
  | 5 => (lanesOf v).headD 32
  | _ => (lanesOf v).getLastD 32

end Sys2Proof.Machine
end

