-- ==== Sys2Proof/Machine/Packet.lean ====
section
/-! DEFINITION. Sys2Proof/Machine/Packet.lean: spans (R377), packets (R381, R383) and their injection into the module's
span routers (R384). -/

namespace Sys2Proof.Machine

/-- Span of a physical address (R377). -/
def spanOf (pa : Nat) : Nat := (List.range 17).foldl (fun s k => s ^^^ ((pa / 128) >>> (3 * k)) % 8) 0

/-- Channel within the link: lower deck 0–2, upper deck 3–5, management 6. -/
abbrev Chan := Nat

/-- DECK of a channel. -/
def chanDeck (c : Chan) : Nat := if 3 ≤ c ∧ c < 6 then 1 else 0
/-- CHAN of a channel. -/
def chanField (c : Chan) : Nat := if c = 6 then 3 else c % 3

/-- The fields of a header flit that a sender gives (R381). -/
structure HeaderInfo where
  /-- DEST -/
  dest : Nat
  /-- Channel. -/
  chan : Chan
  /-- HOPS -/
  hops : Nat
  /-- OPC -/
  opc : BitVec 6
  /-- JOB -/
  job : Nat
  /-- CTX -/
  ctx : Nat
  /-- ADDR -/
  addr : Nat
  /-- TAG -/
  tag : Nat
  /-- BMASK -/
  mask : ByteMask
  deriving DecidableEq, Repr

/-- A packet of this module. -/
def packetOf (module : Nat) (h : HeaderInfo) (payload : List Byte) : Packet :=
  ⟨BitVec.ofNat 512 (h.dest % 256 + module % 256 * 2 ^ 8 + chanDeck h.chan * 2 ^ 16 + chanField h.chan * 2 ^ 17 +
    h.hops % 64 * 2 ^ 19 + payload.length * 2 ^ 25 + h.opc.toNat * 2 ^ 34 + h.job % 2 ^ 16 * 2 ^ 40 + h.ctx % 64 * 2 ^ 56 +
    h.addr % 2 ^ 56 * 2 ^ 64 + h.tag % 2 ^ 32 * 2 ^ 128 + h.mask.toNat * 2 ^ 256), payload⟩

/-- A field of a header flit. -/
def Packet.field (p : Packet) (lo n : Nat) : Nat := fieldOf p.header lo n
/-- Flits of a packet: the header and its payload. -/
def Packet.flits (p : Packet) : Nat := 1 + ceilDiv p.payload.length 64
/-- JOB -/
def Packet.job (p : Packet) : Nat := p.field 40 16
/-- Channel of a packet. -/
def Packet.chan (p : Packet) : Chan := if p.field 17 2 = 3 then 6 else p.field 16 1 * 3 + p.field 17 2

/-! ### Routers -/

/-- A span router. -/
def State.router (s : State) (r : Nat) : Router := tabGet Router.reset s.routers r
/-- Replace a router. -/
def State.setRouter (s : State) (r : Nat) (x : Router) : State := { s with routers := tabSet Router.reset s.routers r x }
/-- The router that carries a span. -/
def State.spanRouter (s : State) (span : Nat) : Nat := fieldOf s.spmap (3 * span) 3
/-- Key of an input channel. -/
def inputKey (input : Nat) (c : Chan) : Nat := 7 * input + c
/-- An input buffer. -/
def Router.input (x : Router) (input : Nat) (c : Chan) : List Packet := tabGet [] x.inputs (inputKey input c)
/-- Replace an input buffer. -/
def Router.setInput (x : Router) (input : Nat) (c : Chan) (ps : List Packet) : Router :=
  { x with inputs := tabSet [] x.inputs (inputKey input c) ps }
/-- A port. -/
def Router.port (x : Router) (p : Nat) : Port := tabGet Port.reset x.ports p
/-- Replace a port. -/
def Router.setPort (x : Router) (p : Nat) (q : Port) : Router := { x with ports := tabSet Port.reset x.ports p q }
/-- Flits buffered in an input channel. -/
def bufferedFlits (ps : List Packet) : Nat := (ps.map Packet.flits).foldl (· + ·) 0
/-- Flits that an input channel buffers (R384). -/
def inputFlits : Nat := 32
/-- The module's own injection. -/
def ownInput : Nat := 9

/-- A packet may enter a router from the module: its flits have room, and no earlier packet of the channel waits (R378, R384). -/
def State.injectRoom (s : State) (r : Nat) (c : Chan) (p : Packet) : Bool :=
  bufferedFlits ((s.router r).input ownInput c) + p.flits ≤ inputFlits && !s.outbox.any (fun e => e.1 == r && e.2.1 == c)

/-- A packet enters a router from the module, or waits for room there. -/
def State.inject (s : State) (r : Nat) (c : Chan) (p : Packet) : State :=
  let x := s.router r
  if s.injectRoom r c p then s.setRouter r (x.setInput ownInput c (x.input ownInput c ++ [p]))
  else { s with outbox := s.outbox ++ [(r, c, p)] }

/-- Packets that wait for room enter their routers, in order. -/
def State.drainOutbox (s : State) : State := s.outbox.foldl (fun s e => s.inject e.1 e.2.1 e.2.2) { s with outbox := [] }

/-! ### The upper deck (R383) -/

/-- A control-space packet to another live module, at the line at which the module serves it (R377, R383). DESIGN CHOICE (log 186):
what R381 does not place in the header comes first in the payload, and a packet that serves no one context names job 0 and
context 0. -/
def State.post (s : State) (peer : Nat) (c : Chan) (op job x line : Nat) (mask : ByteMask) (payload : List Byte) : State :=
  if peer = s.moduleId.toNat ∨ !s.live.getLsbD peer then s
  else
    { (s.inject (s.spanRouter (spanOf (line * 128))) c
        (packetOf s.moduleId.toNat ⟨peer, c, 63, Config.opcode op, job, x, line * 128, s.nextTag, mask⟩ payload)) with
      nextTag := s.nextTag + 1 }

end Sys2Proof.Machine
end

