-- ==== Sys2Proof/Machine/Memory.lean ====
section
/-! DEFINITION. Sys2Proof/Machine/Memory.lean: physical memory and its lines (R345, R428), migration (R359), the
caching agents and the directory of control-space lines (R362–R376), and the requests that serve reads and writes. -/

namespace Sys2Proof.Machine

/-! ### Fields of State -/

/-- The core of a number. -/
def State.core (s : State) (c : Nat) : Core := (tabFind s.cores c).getD Core.idle

/-- Cycles of a core's clock: x.clock of its cluster (R18, R35, R451); 0 for what stands in a save area. -/
def State.clockOf (s : State) (c : Nat) : Nat := if c < 512 then (tabGet 0 s.clocks (c / 32)).toNat else 0

/-- Replace a core. -/
def State.setCore (s : State) (c : Nat) (x : Core) : State := { s with cores := tabSet Core.idle s.cores c x }

/-- Change a core. -/
def State.onCore (s : State) (c : Nat) (f : Core → Core) : State := s.setCore c (f (s.core c))

/-- The context-table entry of a number. -/
def State.ctx (s : State) (x : Nat) : Context := (tabFind s.ctxs x).getD Context.reset

/-- Replace a context-table entry. -/
def State.setCtx (s : State) (x : Nat) (c : Context) : State := { s with ctxs := tabSet Context.reset s.ctxs x c }

/-- Put an event before everything else outstanding. -/
def State.push (s : State) (e : Instr) : State := { s with agenda := e :: s.agenda }

/-- Put events after everything outstanding. -/
def State.enqueue (s : State) (es : List Instr) : State := { s with agenda := s.agenda ++ es }

/-- Draw the next value that no rule states. -/
def State.free (s : State) : Word64 × State := (Config.freeWord s.freeCtr, { s with freeCtr := s.freeCtr + 1 })

/-! ### Bits of a line -/

/-- Byte n of a line (R6). -/
def lineByte (d : Line) (n : Nat) : Byte := d.extractLsb' (8 * n) 8

/-- Bytes [off, off + n) of a line. -/
def lineBytes (d : Line) (off n : Nat) : List Byte := (List.range n).map (fun i => lineByte d (off + i))

/-- A line from 128 bytes. -/
def lineOf (bs : List Byte) : Line := BitVec.ofNat 1024 (leNat bs)

/-- The mask of bytes [off, off + n). -/
def byteMask (off n : Nat) : ByteMask := BitVec.ofNat 128 ((2 ^ n - 1) <<< off)

/-- The 1,024-bit mask that covers the bytes of a byte mask. -/
def bitMask (m : ByteMask) : Line :=
  BitVec.ofNat 1024 ((List.range 128).foldl (fun a i => if m.getLsbD i then a ||| (255 <<< (8 * i)) else a) 0)

/-- A line with the bytes of a mask taken from another. -/
def mergeLine (old new : Line) (m : ByteMask) : Line :=
  if m = BitVec.allOnes 128 then new else (old &&& ~~~(bitMask m)) ||| (new &&& bitMask m)

/-- Bytes placed at an offset of a line. -/
def placeBytes (off : Nat) (bs : List Byte) : Line := BitVec.ofNat 1024 (leNat bs <<< (8 * off))

/-- The bytes of a mask, in ascending order. -/
def maskBytes (m : ByteMask) (d : Line) : List Byte := ((List.range 128).filter (fun i => m.getLsbD i)).map (lineByte d)

/-- A line with bytes at the places of a mask, in ascending order. -/
def spreadBytes (m : ByteMask) (bs : List Byte) : Line :=
  lineOf ((List.range 128).foldl (fun (acc : List Byte × List Byte) i =>
    if m.getLsbD i then (acc.1 ++ [acc.2.headD 0], acc.2.tail) else (acc.1 ++ [0], acc.2)) ([], bs)).1

/-- The bits [lo + n − 1 : lo] of a line as a number. -/
def lineField (d : Line) (lo n : Nat) : Nat := (d.extractLsb' lo n).toNat

/-! ### Physical addresses (R345, R363) -/

/-- Module of a physical address. -/
def paModule (pa : Nat) : Nat := (pa >>> 48) % 256
/-- Local address. -/
def paLocal (pa : Nat) : Nat := pa % 2 ^ 48
/-- The local address exists: HBM4E or tier-2 (R345). -/
def paPresent (pa : Nat) : Bool :=
  let l := paLocal pa
  l < 768 * 2 ^ 30 || (0x10000000000 ≤ l && l < 0x10000000000 + 1536 * 2 ^ 30)
/-- The local address lies in the primary half of a home region (R363). -/
def inPrimary (pa : Nat) : Bool := 0x10000000000 ≤ paLocal pa && paLocal pa < 0x10800000000
/-- Physical line number. -/
def paLine (pa : Nat) : Nat := pa / 128
/-- Memory controller of a local address: stacks 0–11, then LPDDR6 devices 12–35 (R358). -/
def controllerOf (pa : Nat) : Nat :=
  let l := paLocal pa
  if l < 768 * 2 ^ 30 then l / 2 ^ 36 else 12 + (l - 0x10000000000) / 2 ^ 36
/-- The mirror home's line of a primary line (R363). -/
def mirrorLine (r : LineRef) : Nat := (r.mirror * 2 ^ 48 + paLocal (r.line * 128) + 0x800000000) / 128
/-- The line has a mirror home: its leaf names another module. -/
def hasMirror (r : LineRef) : Bool := r.mirror != paModule (r.line * 128)
/-- A module is live (R431). -/
def State.isLive (s : State) (m : Nat) : Bool := m == s.moduleId.toNat || s.live.getLsbD m

/-! ### Memory at the controllers (R359, R428, R437) -/

/-- Where an access to a physical line is performed: past the progress pointer of a move, at its destination. -/
def State.forward (s : State) (l : Nat) : Nat :=
  match s.migs.find? (fun e => e.2.en && !e.2.mode && e.2.src / 128 ≤ l && l < e.2.src / 128 + e.2.ptr) with
  | some (_, m) => m.dst / 128 + (l - m.src / 128)
  | none => l

/-- The canonical form of memory: addresses strictly rising, and no byte listed that reads as an unlisted one (0). -/
def Memory.wf (m : Table Byte) : Bool := tabWf 0 m

/-- Bytes of memory. -/
def State.rawBytes (s : State) (pa n : Nat) : List Byte := tabGetList 0 s.mem pa n

/-- Write bytes of memory. -/
def State.rawWrite (s : State) (pa : Nat) (bs : List Byte) : State := { s with mem := tabSetList 0 s.mem pa bs }

/-- A line as memory holds it, whole. -/
def State.rawLine (s : State) (l : Nat) : Line := lineOf (s.rawBytes (l * 128) 128)

/-- Write the bytes of a mask into memory. -/
def State.rawWriteLine (s : State) (l : Nat) (d : Line) (m : ByteMask) : State :=
  { s with
    mem := (List.range 128).foldl
      (fun t i => if m.getLsbD i then tabSet 0 t (l * 128 + i) (lineByte d i) else t) s.mem }

/-- Copy a line whole at the controllers, with its failed mark (R359, R428). -/
def State.copyLine (s : State) (src dst : Nat) : State :=
  let s := s.rawWriteLine dst (s.rawLine src) (BitVec.allOnes 128)
  { s with failed := if s.failed.contains src then (if s.failed.contains dst then s.failed else dst :: s.failed)
      else s.failed.filter (· != dst) }

/-- The line that a number names once the line `src` stands at `dst`. -/
def movedLine (src dst l : Nat) : Nat := if l = src then dst else l
/-- The same of a physical address. -/
def movedAddr (src dst pa : Nat) : Nat := if pa / 128 = src then dst * 128 + pa % 128 else pa
/-- The same of the words that a hold awaits. -/
def Hold.moved (src dst : Nat) (h : Hold) : Hold := { h with stops := h.stops.map (movedAddr src dst) }
/-- What was kept under one key is kept under another. -/
def tabMove {α : Type} (t : Table α) (src dst : Nat) : Table α :=
  match tabFind t src with
  | some x => tabPut (tabDel t src) dst x
  | none => tabDel t dst

/-- What a record awaits, once a line has moved. -/
def PathRec.movedLine (src dst : Nat) (q : PathRec) : PathRec :=
  if q.state ≠ .parked then q
  else if q.reason = 4 then { q with waitPtrs := q.waitPtrs.map (fun p => BitVec.ofNat 64 (Machine.movedLine src dst p.toNat)) }
  else if q.reason = 11 then { q with waitPtrs := q.waitPtrs.map (fun p => BitVec.ofNat 64 (movedAddr src dst p.toNat)) }
  else q

/-- What a core keeps of a line, once it has moved: the lines in its L1, held lines, cached descriptors and what is awaited. -/
def Core.movedLine (src dst : Nat) (k : Core) : Core :=
  { k with
    l1 := k.l1.map (fun e => (e.1, { e.2 with pline := Machine.movedLine src dst e.2.pline, slot := e.2.slot.map (Machine.movedLine src dst) }))
    held := k.held.map (Machine.movedLine src dst)
    descs := k.descs.map (fun d => { d with line := Machine.movedLine src dst d.line })
    groups := k.groups.map (fun g => (g.1, { g.2 with recs := g.2.recs.map (fun q => (q.1, q.2.movedLine src dst)) }))
    copies := k.copies.map (fun c => (c.1, { c.2 with hold := c.2.hold.map (Hold.moved src dst) }))
    steps := k.steps.map (fun x => (x.1, { x.2 with hold := x.2.hold.map (Hold.moved src dst) }))
    nears := k.nears.map (fun n => (n.1, { n.2 with hold := n.2.hold.map (Hold.moved src dst) })) }

/-- Copy a line by a move (R173, R297, R359): its bytes, and with them its directory entry, what agents and cores hold of it, and
what is awaited in it. -/
def State.moveLine (s : State) (src dst : Nat) : State :=
  let s := s.copyLine src dst
  { s with
    dir := tabMove (s.dir.map (fun e => (e.1, { e.2 with mirror := e.2.mirror.map (movedLine src dst) }))) src dst
    mirrorDir := tabMove (s.mirrorDir.map (fun e => (e.1, { e.2 with mirror := e.2.mirror.map (movedLine src dst) }))) src dst
    l2 := ((s.l2.map (fun e => e.1 / 2 ^ 49)).eraseDups).foldl (fun t a => tabMove t (a * 2 ^ 49 + src) (a * 2 ^ 49 + dst)) s.l2
    xlats := s.xlats.map (fun t => { t with nodes := t.nodes.map (movedLine src dst) })
    upper := s.upper.map (fun e => (e.1, { e.2 with line := movedLine src dst e.2.line, slot := e.2.slot.map (movedLine src dst) }))
    qps := s.qps.map (fun q => (q.1, { q.2 with
      out := q.2.out.map (fun r => { r with hold := r.hold.map (Hold.moved src dst) })
      ends := q.2.ends.map (fun e => ({ e.1 with hold := e.1.hold.map (Hold.moved src dst) }, e.2)) }))
    cores := s.cores.map (fun c => (c.1, c.2.movedLine src dst)) }

/-- The source line of a DRAIN's line operation. -/
def LineOp.snapLine (o : LineOp) : Option Nat :=
  match o.pieces with
  | p :: _ =>
    match p.src with
    | .phys pa _ => some (pa / 128)
    | .line _ _ _ => none
    | _ => none
  | [] => none

/-- Pointer of a line operation's source. -/
def LineOp.srcPtr (o : LineOp) : Word64 :=
  match o.pieces with
  | p :: _ =>
    match p.src with
    | .phys _ q => q
    | .line _ _ q => q
    | .ptr q => q
    | .scratch a => BitVec.ofNat 64 a
  | [] => 0

/-- A line of a snapshot is read at its source and sent by the DRAIN that claimed its entry; a source line that has
failed is not sent (R437, R438). -/
def State.snapCarry (s : State) (core slot l : Nat) : State :=
  match (tabFind (s.core core).copies slot).bind (fun x => x.todo.find? (fun o => o.snapLine = some l)) with
  | none => s
  | some o =>
    if s.failed.contains l then
      s.onCore core (fun k => { k with copies := tabMod k.copies slot (fun x =>
        { x with error := some (x.error.getD (19, o.srcPtr)) }) })
    else
      let s' := s.onCore core (fun k => { k with copies := tabMod k.copies slot (fun x =>
        { x with flying := x.flying ++ [⟨o, some [s.rawBytes (l * 128) 128], s.nextTag, [], true⟩] }) })
      { s' with nextTag := s.nextTag + 1 }

/-- OnLineOperation of R437 for the line at an entry's pointer: it is sent unless it was copied early; the DRAIN has
issued that operation. -/
def State.snapStep (s : State) (key : Nat) : State :=
  match tabFind s.migs key with
  | none => s
  | some m =>
    match m.owner with
    | none => s
    | some (c, j) =>
      let l := m.src / 128 + m.ptr
      let s := if m.early.contains m.ptr then s else s.snapCarry c j l
      let s := s.onCore c (fun k => { k with copies := tabMod k.copies j (fun x =>
        { x with todo := x.todo.filter (fun o => o.snapLine != some l) }) })
      { s with migs := tabPut s.migs key { m with ptr := m.ptr + 1, early := m.early.filter (· != m.ptr) } }

/-- Lines that an entry may have copied early. -/
def earlyMax : Nat := 32

/-- OnWrite of R437 for one entry: the old line is copied early; with 32 lines copied early, the write comes after the
operations up to its line. -/
def State.snapEarly (s : State) (key l : Nat) : State :=
  match tabFind s.migs key with
  | none => s
  | some m =>
    let i := l - m.src / 128
    if m.en && m.mode && m.src / 128 ≤ l && l < m.src / 128 + m.lines && m.ptr ≤ i && !m.early.contains i then
      if m.early.length < earlyMax then
        match m.owner with
        | none => s
        | some (c, j) => { (s.snapCarry c j l) with migs := tabPut s.migs key { m with early := i :: m.early } }
      else (List.range (i + 1 - m.ptr)).foldl (fun s _ => s.snapStep key) s
    else s

/-- Before a write to a line, every snapshot entry whose pointer has not passed it copies it (R437). -/
def State.snapBefore (s : State) (l : Nat) : State := s.migs.foldl (fun s e => s.snapEarly e.1 l) s

/-- A line read at its memory controller; class 19 when it is marked failed (R428). -/
def State.ctlRead (s : State) (l : Nat) : Except Nat Line :=
  let l' := s.forward l
  if s.failed.contains l' then .error 19 else .ok (s.rawLine l')

/-- A line write at its memory controller: a failed line takes only a write of all 128 bytes (R428). -/
def State.ctlWrite (s : State) (l : Nat) (d : Line) (m : ByteMask) : Except Nat State :=
  let l' := s.forward l
  if s.failed.contains l' && m != BitVec.allOnes 128 then .error 19
  else
    let s := s.snapBefore l'
    .ok { (s.rawWriteLine l' d m) with failed := s.failed.filter (· != l') }

/-! ### Homes (R363, R374, R375, R432) -/

/-- A line as requests at its home name it: where it stands now, and the line of its mirror home where a leaf names one. -/
structure HomeRef where
  /-- Physical line. -/
  line : Nat
  /-- Line of the mirror home. -/
  slot : Option Nat
  deriving DecidableEq, Repr

/-- The line that a leaf, or a request from outside, names (R359, R363). -/
def State.homeRef (s : State) (r : LineRef) : HomeRef :=
  ⟨s.forward r.line, if hasMirror r then some (s.forward (mirrorLine r)) else none⟩

/-- Directory entry of a line. -/
def State.dirOf (s : State) (l : Nat) : DirEntry := tabGet DirEntry.idle s.dir l

/-- A line as its directory entry names it. -/
def State.keyRef (s : State) (l : Nat) : HomeRef := ⟨l, (s.dirOf l).mirror⟩

/-- Mirror home of a line: the one that the request names, or the one that its entry has. -/
def State.slotOf (s : State) (r : HomeRef) : Option Nat := r.slot.or (s.dirOf r.line).mirror

/-- A slot's line, on a module that is live. -/
def State.liveSlot (s : State) (r : HomeRef) : Option Nat := (s.slotOf r).filter (fun m => s.isLive (paModule (m * 128)))

/-- The line at which a control-space line is served: its primary, its mirror after the primary's loss, or nowhere
(class 12). -/
def State.homeLine (s : State) (r : HomeRef) : Except Nat Nat :=
  if s.isLive (paModule (r.line * 128)) then .ok r.line
  else
    match s.liveSlot r with
    | some m => .ok m
    | none => .error 12

/-- The bytes at the home. -/
def State.homeRead (s : State) (r : HomeRef) : Except Nat Line := do
  let l ← s.homeLine r
  s.ctlRead l

/-- A primary home of this module sends its mirror home an update of bytes of a line or of its entry (R374, R383). -/
def State.toMirror (s : State) (l m : Nat) (mask : ByteMask) (payload : List Byte) : State :=
  if paModule (l * 128) = s.moduleId.toNat then s.post (paModule (m * 128)) 4 34 0 0 m mask payload else s

/-- Write bytes at the home and, before anything else is served, at the mirror (R374). -/
def State.homeWrite (s : State) (r : HomeRef) (d : Line) (m : ByteMask) : Except Nat State := do
  let l ← s.homeLine r
  let s ← s.ctlWrite l d m
  match s.liveSlot r with
  | some k => if l = r.line then (s.toMirror l k m (maskBytes m d)).ctlWrite k d m else .ok s
  | none => .ok s

/-- A directory entry as a mirror update carries it: state, owner, marks, the holding core, sharers, and the masks (R366). -/
def DirEntry.image (d : DirEntry) : List Byte :=
  let st : Nat := match d.state with | .i => 0 | .s => 1 | .x => 2 | .o => 3 | .p => 4
  let marks := (if d.sync then 1 else 0) + (if d.contended then 2 else 0) + (if d.held.isSome then 4 else 0)
  let held := match d.held with | some h => leBytes 4 (h.module + h.core * 2 ^ 8 + h.slot * 2 ^ 20) | none => []
  ([BitVec.ofNat 8 st] ++ leBytes 2 d.owner ++ [BitVec.ofNat 8 marks] ++ held ++ d.sharers.flatMap (leBytes 2) ++
    d.masks.flatMap (fun e => leBytes 2 e.1 ++ leBytes 16 e.2.toNat)).take 256

/-- Change a directory entry, at the primary and at the slot of the mirror home, which holds the last update that reached it
(R363, R374). -/
def State.setDir (s : State) (l : Nat) (d : DirEntry) : State :=
  let s := { s with dir := tabSet DirEntry.idle s.dir l d }
  match d.mirror with
  | some m =>
    if s.isLive (paModule (m * 128)) then
      { (s.toMirror l m 0 d.image) with mirrorDir := tabSet DirEntry.idle s.mirrorDir m d }
    else s
  | none => s

/-! ### Requests and forwards between modules (R383) -/

/-- Module of a line's mirror home as a request names it: the primary's own where there is none. -/
def HomeRef.mirror (r : HomeRef) : Nat :=
  match r.slot with
  | some m => paModule (m * 128)
  | none => paModule (r.line * 128)

/-- Payload of a packet to or from an agent: its number, the mirror home's module, and a flag (log 186). -/
def agentBytes (a : Nat) (r : HomeRef) (flag : Nat) : List Byte := leBytes 2 a ++ [BitVec.ofNat 8 r.mirror, BitVec.ofNat 8 flag]

/-- The home has answered a load's or an atomic's request of an agent for a line. -/
def State.asked (s : State) (a l : Nat) : Bool := s.upper.any (fun e => e.2.agent == a && e.2.line == l && e.2.answer.isSome)

/-- An agent of this module makes a request of a home on another module; not a second one for a load or an atomic that is answered. -/
def State.toHome (s : State) (r : HomeRef) (a op flag : Nat) (mask : ByteMask) (data : List Byte) : State :=
  match s.homeLine r with
  | .ok l =>
    if a / 8 = s.moduleId.toNat ∧ !s.asked a r.line then
      s.post (paModule (l * 128)) 3 op 0 0 l mask (agentBytes a r flag ++ data)
    else s
  | .error _ => s

/-- A home of this module sends an agent of another module a forward, on behalf of an agent. -/
def State.toAgent (s : State) (r : HomeRef) (a op by_ : Nat) : State :=
  match s.homeLine r with
  | .ok l => if paModule (l * 128) = s.moduleId.toNat then s.post (a / 8) 4 op 0 0 l 0 (agentBytes a r 0 ++ leBytes 2 by_) else s
  | .error _ => s

/-! ### Agents (R362, R364, R365) -/

/-- Key of an agent's line. -/
def agentKey (a l : Nat) : Nat := a * 2 ^ 49 + l

/-- What an agent holds of a line; none in I. -/
def State.agentLine (s : State) (a l : Nat) : Option AgentLine := tabFind s.l2 (agentKey a l)

/-- Set what an agent holds. -/
def State.setAgent (s : State) (a l : Nat) (x : AgentLine) : State := { s with l2 := tabPut s.l2 (agentKey a l) x }

/-- The agent is in I. -/
def State.dropAgent (s : State) (a l : Nat) : State := { s with l2 := tabDel s.l2 (agentKey a l) }

/-- Agent of a die of this module, or of a host port (4, 5). -/
def State.agentOf (s : State) (a : Nat) : Nat := s.moduleId.toNat * 8 + a

/-- Die of a core (R14); a core that holds a saved context's part stands for a core of its logical number. -/
def coreDie (c : Nat) : Nat := c % 512 / 128

/-- Agent of a core's die. -/
def State.coreAgent (s : State) (c : Nat) : Nat := s.agentOf (coreDie c)

/-- Physical address of a side of a line operation that was translated when it was issued. -/
def CopyAddr.pa? : CopyAddr → Option Nat
  | .line pa _ _ => some pa
  | .phys pa _ => some pa
  | _ => none

/-- A physical address lies in a page. -/
def OldPage.holds (o : OldPage) (pa : Nat) : Bool := o.pa ≤ pa && pa < o.pa + 4096 * o.pages

/-- Requests sent under a dropped translation, or line operations issued under it that are still to be sent to another module,
are outstanding (R378). -/
def State.pageBusy (s : State) (o : OldPage) : Bool :=
  s.lower.any (fun r => r.1 < o.before && coreDie r.2.core == o.die && o.holds r.2.pa) ||
    s.upper.any (fun r => r.1 < o.before && coreDie r.2.core == o.die && r.2.answer.isNone && o.holds (r.2.line * 128)) ||
    s.cores.any (fun c => coreDie c.1 == o.die && c.2.copies.any (fun y => y.2.flying.any (fun f =>
      decide (f.seq < o.before) && f.op.pieces.any (fun p => [p.src, p.dst].any (fun a => (a.pa?.map o.holds).getD false)))))

/-- What a dropped translation leaves: its page where requests under it are outstanding. Only those to another module are. -/
def State.oldPageOf (s : State) (t : CachedXlat) : Option OldPage :=
  let o : OldPage := ⟨t.die, t.otbase, t.obj, t.page, t.pages, t.pa, s.nextTag⟩
  if paModule t.pa ≠ s.moduleId.toNat ∧ s.pageBusy o then some o else none

/-- Cached translations and descriptors that used a line are dropped when it is written or invalidated (R349, R353). -/
def State.dropCached (s : State) (l : Nat) : State :=
  { s with
    xlats := s.xlats.filter (fun x => !x.nodes.contains l)
    oldPages := s.oldPages.filter s.pageBusy ++ (s.xlats.filter (fun x => x.nodes.contains l)).filterMap s.oldPageOf
    cores := s.cores.map (fun e => (e.1, { e.2 with descs := e.2.descs.filter (fun d => d.line != l) })) }

/-- Read forward at an agent (R365): its next state and the line, where it sends one. -/
def State.readForward (s : State) (a l : Nat) : Option Line × State :=
  match s.agentLine a l with
  | some x =>
    match x.state with
    | .m => (some x.data, s.setAgent a l { x with state := .o })
    | .o => (some x.data, s)
    | .e => (some x.data, s.setAgent a l { x with state := .s })
    | _ => (none, s)
  | none => (none, s)

/-- Ownership forward at an agent. -/
def State.ownForward (s : State) (a l : Nat) : Option Line × State :=
  match s.agentLine a l with
  | some x =>
    match x.state with
    | .m => (some x.data, (s.dropAgent a l).dropCached l)
    | .o => (some x.data, (s.dropAgent a l).dropCached l)
    | .e => (some x.data, (s.dropAgent a l).dropCached l)
    | _ => (none, s)
  | none => (none, s)

/-- Invalidate at an agent. -/
def State.invalidateAgent (s : State) (a l : Nat) : State :=
  match s.agentLine a l with
  | some x => if x.state = .s then (s.dropAgent a l).dropCached l else s
  | none => s

/-- Invalidate every agent of a list. -/
def State.invalidateAll (s : State) (as : List Nat) (l : Nat) : State :=
  as.foldl (fun s a => (s.toAgent (s.keyRef l) a 14 0).invalidateAgent a l) s

/-- Convert at an agent (R369): the line and the mask it keeps. -/
def State.convertAgent (s : State) (a l : Nat) : Option (Line × ByteMask) × State :=
  match s.agentLine a l with
  | some x =>
    let mask := if x.state = .e then 0 else x.mask
    match x.state with
    | .s => (none, s)
    | .pw => (none, s)
    | _ => (some (x.data, mask), s.setAgent a l { x with state := .pw, mask := mask })
  | none => (none, s)

/-- Gather (R371): every Pw holder's mask bytes go to the home; the entry becomes I. -/
def State.gather (s : State) (r : HomeRef) : Except Nat State := do
  let d := s.dirOf r.line
  if d.state ≠ .p then return s
  let s ← d.masks.foldlM (fun (s : State) e =>
    match s.agentLine e.1 r.line with
    | some x => do
      let s ← (s.toAgent r e.1 32 0).homeWrite r x.data x.mask
      return (s.dropAgent e.1 r.line).dropCached r.line
    | none => .ok s) s
  return s.setDir r.line { s.dirOf r.line with state := .i, masks := [], owner := 0, sharers := [] }

/-! ### Contention (R368) -/

/-- Cycles of the contention window. -/
def contentionWindow : Nat := 4096

/-- The flag is cleared when the window passes with no ownership transfer and no Pw grant. -/
def DirEntry.expire (d : DirEntry) (now : Nat) : DirEntry :=
  if d.contended && contentionWindow ≤ now - d.lastMove then { d with contended := false, transfers := [] } else d

/-- The entry as a request finds it: at the end of the window an expiry comes after the requests of its cycle (R376). -/
def DirEntry.atRequest (d : DirEntry) (now : Nat) : DirEntry :=
  if d.contended && contentionWindow < now - d.lastMove then { d with contended := false, transfers := [] } else d

/-- The directory entry that a request finds, with the mirror home that the request names (R374). -/
def State.entryAt (s : State) (r : HomeRef) : DirEntry := { (s.dirOf r.line).atRequest s.time with mirror := s.slotOf r }

/-- Count an ownership transfer; sync lines count none. -/
def DirEntry.transfer (d : DirEntry) (now : Nat) : DirEntry :=
  if d.sync then d
  else
    let ts := now :: d.transfers.filter (fun t => now - t < contentionWindow)
    { d with transfers := ts, contended := d.contended || 4 ≤ ts.length, lastMove := now }

/-! ### Ways at L2 (R13, R360) -/

/-- Ways of an L2 set. -/
def l2Ways : Nat := 16
/-- Slices of a die's L2. -/
def l2Slices : Nat := 512
/-- Sets of a slice. -/
def l2SliceSets : Nat := 64

/-- Slice and set of a physical line at an agent, 64 × slice + set; of the shared host-core caches the spec gives no slices. -/
def l2SetOf (a l : Nat) : Nat := if a % 8 < 4 then Config.l2Set a l % (l2Slices * l2SliceSets) else Config.l2Set a l

/-- Lines of a slice that count for a class (R360): its occupancy counter. -/
def State.occupancy (s : State) (a slice cos : Nat) : Nat :=
  (s.l2.filter (fun e => e.1 / 2 ^ 49 = a ∧ e.2.cos = cos ∧ l2SetOf a (e.1 % 2 ^ 49) / l2SliceSets = slice)).length

/-- Ways that a class's mask allows at an agent; the masks are those of this module. -/
def State.classWays (s : State) (a cos : Nat) : List Nat :=
  let m := if a / 8 = s.moduleId.toNat then tabGet 0xFFFF s.cosMasks cos else 0xFFFF
  (List.range l2Ways).filter (fun w => m.getLsbD w)

/-- Lines of an agent in the set of a line. -/
def State.l2SetLines (s : State) (a l : Nat) : List (Nat × AgentLine) :=
  (s.l2.filter (fun e => e.1 / 2 ^ 49 = a)).filter (fun e => l2SetOf a (e.1 % 2 ^ 49) = l2SetOf a l)

/-- An invalid way of a line's set that its class may fill: one that no line of the agent uses, or else one that none of
the set does. -/
def State.freeWay (s : State) (a l cos : Nat) : Option Nat :=
  let mine := s.l2.filter (fun e => e.1 / 2 ^ 49 = a)
  match (s.classWays a cos).find? (fun w => mine.all (fun e => e.2.way != w)) with
  | some w => some w
  | none => (s.classWays a cos).find? (fun w => (s.l2SetLines a l).all (fun e => e.2.way != w))

/-! ### Requests served at the home (R367) -/

/-- Insert into an ascending list. -/
def insertAsc (a : Nat) : List Nat → List Nat
  | [] => [a]
  | b :: bs => if a < b then a :: b :: bs else if a = b then b :: bs else b :: insertAsc a bs

/-- What an agent receives on a grant. -/
def State.grant (s : State) (a l : Nat) (st : Moesi) (d : Line) (m : ByteMask) (cos : Nat) : State :=
  let way := match s.agentLine a l with
    | some x => x.way
    | none => (s.freeWay a l cos).getD 0
  { (s.setAgent a l ⟨st, d, m, cos, s.l2Use, [], way⟩) with l2Use := s.l2Use + 1 }

/-- Read request (R367). Afterwards the agent holds the line in E or S. -/
def State.homeReadReq (s : State) (r : HomeRef) (a cos : Nat) : Except Nat State := do
  let l := r.line
  let s ← s.gather r
  let d := s.entryAt r
  match d.state with
  | .x =>
    let ownerState := (s.agentLine d.owner l).map AgentLine.state
    match (s.toAgent r d.owner 12 a).readForward d.owner l with
    | (some data, s) =>
      let d' : DirEntry := if ownerState = some .e then
          { d with state := .s, sharers := insertAsc a [d.owner], owner := 0 }
        else { d with state := .o, sharers := [a] }
      return (s.setDir l d').grant a l .s data 0 cos
    | (none, s) =>
      let data ← s.homeRead r
      return (s.setDir l { d with state := .x, owner := a, sharers := [] }).grant a l .e data 0 cos
  | .o =>
    match (s.toAgent r d.owner 12 a).readForward d.owner l with
    | (some data, s) => return (s.setDir l { d with sharers := insertAsc a d.sharers }).grant a l .s data 0 cos
    | (none, s) =>
      let data ← s.homeRead r
      return (s.setDir l { d with state := .s, sharers := insertAsc a d.sharers, owner := 0 }).grant a l .s data 0 cos
  | .s =>
    let data ← s.homeRead r
    return (s.setDir l { d with sharers := insertAsc a d.sharers }).grant a l .s data 0 cos
  | _ =>
    let data ← s.homeRead r
    return (s.setDir l { d with state := .x, owner := a, sharers := [], masks := [] }).grant a l .e data 0 cos

/-- Ownership request in the states I, S, X and O when it is not privatised (R367): the agent ends in E, or in M where
the line is newer than the home. -/
def State.homeOwnWhole (s : State) (r : HomeRef) (a cos : Nat) : Except Nat State := do
  let l := r.line
  let d := s.entryAt r
  let mine := s.agentLine a l
  let toX (d : DirEntry) : DirEntry :=
    { d with state := .x, owner := a, sharers := [], masks := [] }
  match d.state with
  | .x =>
    if d.owner = a then return s
    let newer : Bool := match s.agentLine d.owner l with
      | some x => x.state != .e
      | none => false
    match (s.toAgent r d.owner 13 a).ownForward d.owner l with
    | (some data, s) => return (s.setDir l (toX (d.transfer s.time))).grant a l (if newer then .m else .e) data 0 cos
    | (none, s) =>
      let data ← s.homeRead r
      return (s.setDir l (toX d)).grant a l .e data 0 cos
  | .o =>
    if d.owner = a then
      let s := s.invalidateAll d.sharers l
      match mine with
      | some x => return (s.setDir l (toX d)).setAgent a l { x with state := .m }
      | none => return s
    let (fwd, s) := (s.toAgent r d.owner 13 a).ownForward d.owner l
    let s := s.invalidateAll (d.sharers.filter (· != a)) l
    let s := s.setDir l (toX (d.transfer s.time))
    match mine, fwd with
    | some x, some _ => return s.setAgent a l { x with state := .m, mask := 0 }
    | some x, none => return s.setAgent a l { x with state := .e, mask := 0 }
    | none, some data => return s.grant a l .m data 0 cos
    | none, none =>
      let data ← s.homeRead r
      return s.grant a l .e data 0 cos
  | .s =>
    let s := s.invalidateAll (d.sharers.filter (· != a)) l
    let s := s.setDir l (toX d)
    match mine with
    | some x => return s.setAgent a l { x with state := .e, mask := 0 }
    | none =>
      let data ← s.homeRead r
      return s.grant a l .e data 0 cos
  | _ =>
    let data ← s.homeRead r
    return (s.setDir l (toX d)).grant a l .e data 0 cos

/-- Two byte masks share no byte. -/
def disjointMask (a b : ByteMask) : Bool := a &&& b == 0

/-- Grant Pw with a mask (R367, R369). -/
def State.grantPw (s : State) (r : HomeRef) (a : Nat) (mask : ByteMask) (cos : Nat) : State :=
  let d := s.entryAt r
  let s := s.setDir r.line { d with state := .p, owner := 0, sharers := [], masks := tabPut d.masks a mask, lastMove := s.time }
  match s.agentLine a r.line with
  | some x => s.setAgent a r.line { x with state := .pw, mask := mask }
  | none => s.grant a r.line .pw 0 mask cos

/-- Ownership request (R367). -/
def State.homeOwnReq (s : State) (r : HomeRef) (a : Nat) (whole : Bool) (mask : ByteMask) (cos : Nat) :
    Except Nat State := do
  let l := r.line
  let d := s.entryAt r
  let holds := match s.agentLine a l with
    | some x => x.state != .pw
    | none => false
  if whole || d.sync || !d.contended || holds then
    let s ← s.gather r
    s.homeOwnWhole r a cos
  else
    match d.state with
    | .p =>
      if (d.masks.filter (fun e => e.1 != a)).all (fun e => disjointMask e.2 mask) then
        return s.grantPw r a (tabGet 0 d.masks a ||| mask) cos
      else
        let s ← s.gather r
        s.homeOwnWhole r a cos
    | .i => s.homeOwnWhole r a cos
    | .s => s.homeOwnWhole r a cos
    | _ =>
      let (conv, s) := (s.toAgent r d.owner 15 a).convertAgent d.owner l
      let s := s.invalidateAll d.sharers l
      match conv with
      | some (data, m) =>
        let s ← s.homeWrite r data (BitVec.allOnes 128)
        let s := s.setDir l { d with state := .p, owner := 0, sharers := [], masks := [(d.owner, m)] }
        if disjointMask m mask then return s.grantPw r a mask cos
        else
          let s ← s.gather r
          s.homeOwnWhole r a cos
      | none => s.homeOwnWhole r a cos

/-- Mask request of a Pw holder (R367). -/
def State.homeMaskReq (s : State) (r : HomeRef) (a : Nat) (mask : ByteMask) (cos : Nat) : Except Nat State :=
  let d := s.dirOf r.line
  if d.state = .p ∧ (tabFind d.masks a).isSome then
    if (d.masks.filter (fun e => e.1 != a)).all (fun e => disjointMask e.2 mask) then
      .ok (s.grantPw r a (tabGet 0 d.masks a ||| mask) cos)
    else do
      let s ← s.gather r
      s.homeOwnReq r a false mask cos
  else s.homeOwnReq r a false mask cos

/-- Write-back of an evicted line (R367). -/
def State.homeWriteBack (s : State) (r : HomeRef) (a : Nat) : Except Nat State :=
  let l := r.line
  let d := s.dirOf l
  match s.agentLine a l with
  | none => .ok s
  | some x =>
    match x.state with
    | .pw => s.gather r
    | .s => .ok s
    | _ => do
      let s ← s.homeWrite r x.data (BitVec.allOnes 128)
      let s := (s.dropAgent a l).dropCached l
      return s.setDir l { d with state := if d.state = .o then .s else .i, owner := 0 }

/-- An agent in S evicts the line and informs the home (R365). -/
def State.sharerEvict (s : State) (r : HomeRef) (a : Nat) : State :=
  match s.agentLine a r.line with
  | some x =>
    if x.state = .s then
      let d := s.dirOf r.line
      let sh := d.sharers.filter (· != a)
      let s := (s.dropAgent a r.line).dropCached r.line
      s.setDir r.line { d with sharers := sh, state := if d.state = .s ∧ sh.isEmpty then .i else d.state }
    else s
  | none => s

/-! ### Replacement at L2 (R360) -/

/-- An agent's line leaves it. -/
def State.evictAgent (s : State) (r : HomeRef) (a : Nat) (x : AgentLine) : Except Nat State :=
  if x.state = .s then .ok ((s.toHome r a 11 0 0 []).sharerEvict r a)
  else
    let m := if x.state = .pw then x.mask else BitVec.allOnes 128
    (s.toHome r a 10 0 m (maskBytes m x.data)).homeWriteBack r a

/-- A fill of a class whose mask is not empty needs a way: where none that the mask allows is invalid, the least recently
used line of the set in those ways leaves, lines with a sync mark or held for promotion last; a held line is promoted
(R291). -/
def State.l2MakeRoom (s : State) (a l cos : Nat) : Except Nat State :=
  if (s.classWays a cos).isEmpty || (s.freeWay a l cos).isSome then .ok s
  else
    let set := (s.l2SetLines a l).filter (fun e => (s.classWays a cos).contains e.2.way)
    let plain := set.filter (fun e => let d := s.dirOf (e.1 % 2 ^ 49); !d.sync && d.held.isNone)
    let pool := if plain.isEmpty then set else plain
    match pool with
    | [] => .ok s
    | e :: es =>
      let v := es.foldl (fun b x => if x.2.used < b.2.used then x else b) e
      let r := s.keyRef (v.1 % 2 ^ 49)
      let s := if (s.dirOf r.line).held.isSome then s.push (.recall ⟨r.line, paModule (r.line * 128)⟩ a) else s
      s.evictAgent r a v.2

/-- A class whose mask is 0 allocates nothing: what its access has filled leaves again. -/
def State.unallocated (s : State) (a : Nat) (r : HomeRef) (cos : Nat) : Except Nat State :=
  if !(s.classWays a cos).isEmpty then .ok s
  else
    match s.agentLine a r.line with
    | some x => s.evictAgent r a x
    | none => .ok s

/-! ### Accesses at an agent -/

/-- What a read request reads at an agent: an agent in Pw holds the bytes of its mask (R364). -/
def AgentLine.reads (x : AgentLine) (mask : ByteMask) : Bool := x.state != .pw || mask &&& ~~~x.mask == 0

/-- A read at an agent of the bytes of a mask: a hit, or a read request, with the acquire bit where the access acquires (R372). -/
def State.agentRead (s : State) (a : Nat) (r : HomeRef) (mask : ByteMask) (cos : Nat) (acquire : Bool := false) :
    Except Nat (Line × State) := do
  let ask (s : State) : State := s.toHome r a 7 (if acquire then 1 else 0) 0 []
  match s.agentLine a r.line with
  | some x =>
    if x.reads mask then
      return (x.data, { (s.setAgent a r.line { x with used := s.l2Use }) with l2Use := s.l2Use + 1 })
    else
      let s ← (ask s).homeReadReq r a cos
      match s.agentLine a r.line with
      | some y => return (y.data, s)
      | none => .error 19
  | none =>
    let s ← s.l2MakeRoom a r.line cos
    let s ← (ask s).homeReadReq r a cos
    match s.agentLine a r.line with
    | some y => do
      let s ← s.unallocated a r cos
      return (y.data, s)
    | none => .error 19

/-- A record is parked until a line is written (WAITA, reason 4). -/
def PathRec.awaits (q : PathRec) (l : Nat) : Bool :=
  q.state == .parked && q.reason == 4 && q.waitPtrs.contains (BitVec.ofNat 64 l)

/-- Table words that a hold awaits. -/
def holdStops (h : Option Hold) : List Nat :=
  match h with
  | some h => h.stops
  | none => []

/-- Requests that have not completed. -/
def QueuePair.pending (q : QueuePair) : List NetReq := q.out ++ q.ends.map Prod.fst
/-- Change each request that has not completed. -/
def QueuePair.eachReq (q : QueuePair) (f : NetReq → NetReq) : QueuePair :=
  { q with out := q.out.map f, ends := q.ends.map (fun e => (f e.1, e.2)) }

/-- Table words whose write is awaited (R356): by records parked with reason 11, by engines held, by work requests held. -/
def State.awaitedWords (s : State) : List Nat :=
  s.cores.flatMap (fun c =>
    c.2.groups.flatMap (fun g => g.2.recs.flatMap (fun q =>
      if q.2.state = .parked ∧ q.2.reason = 11 then q.2.waitPtrs.map BitVec.toNat else [])) ++
    c.2.copies.flatMap (fun x => holdStops x.2.hold) ++ c.2.steps.flatMap (fun x => holdStops x.2.hold) ++
    c.2.nears.flatMap (fun x => holdStops x.2.hold)) ++
  s.qps.flatMap (fun q => q.2.pending.flatMap (fun r => holdStops r.hold))

/-- Records whose WAITA awaits a line. -/
def State.waiters (s : State) (l : Nat) : List Instr :=
  s.cores.flatMap (fun c => c.2.groups.flatMap (fun g => g.2.recs.flatMap (fun q =>
    if q.2.awaits l then [.parkWake c.1 g.1 q.1] else [])))

/-- Wakes due to bytes of a line being written: WAITA records, and a retry of what a translation holds (R172, R253, R356). -/
def State.lineWakes (s : State) (l : Nat) (mask : ByteMask) : List Instr :=
  s.waiters l ++ (s.awaitedWords.eraseDups.filter (fun a => a / 128 = l ∧ mask &&& byteMask (a % 128) 8 ≠ 0)).map Instr.translationRetry

/-- What a write of bytes of a line makes due comes next. -/
def State.lineWritten (s : State) (l : Nat) (mask : ByteMask) : State :=
  let s := s.dropCached l
  { s with agenda := s.lineWakes l mask ++ s.agenda }

/-- A write at an agent of the bytes of a mask, by a core (its number) or another source. -/
def State.agentWrite (s : State) (a : Nat) (r : HomeRef) (d : Line) (mask : ByteMask) (whole : Bool) (cos : Nat)
    (core : Option Nat) : Except Nat State := do
  let l := r.line
  let ask (op : Nat) (s : State) : State := s.toHome r a op (if whole then 1 else 0) mask (maskBytes mask d)
  let finish (s : State) : Except Nat State :=
    match s.agentLine a l with
    | none => .error 19
    | some x =>
      let st : Moesi := if x.state = .pw then .pw else .m
      let m := if x.state = .pw then x.mask else if x.state = .m then x.mask ||| mask else mask
      let pub := match core with
        | some c => if x.state = .pw then insertAsc c x.published else x.published
        | none => x.published
      .ok (({ (s.setAgent a l { x with state := st, data := mergeLine x.data d mask, mask := m, used := s.l2Use, published := pub })
        with l2Use := s.l2Use + 1 } : State).lineWritten l mask)
  match s.agentLine a l with
  | some x =>
    match x.state with
    | .m => finish s
    | .e => finish s
    | .pw =>
      if !whole && mask &&& ~~~x.mask = 0 then finish s
      else if whole then finish (← (ask 8 s).homeOwnReq r a true mask cos)
      else finish (← (ask 9 s).homeMaskReq r a mask cos)
    | _ => finish (← (ask 8 s).homeOwnReq r a whole mask cos)
  | none =>
    let s ← s.l2MakeRoom a l cos
    let s ← (ask 8 s).homeOwnReq r a whole mask cos
    let s ← finish s
    s.unallocated a r cos

/-- Read and write a line at an agent in one (R367): a whole ownership request where the agent does not own it, then the change;
the line before it. -/
def State.agentUpdate (s : State) (a : Nat) (r : HomeRef) (cos : Nat) (core : Option Nat) (f : Line → Line × ByteMask) :
    Except Nat (Line × State) := do
  let owns (s : State) : Option Line := (s.agentLine a r.line).bind (fun x => if x.state = .m ∨ x.state = .e then some x.data else none)
  let change (s : State) : Except Nat (Line × State) :=
    match owns s with
    | none => .error 19
    | some d => (s.agentWrite a r (f d).1 (f d).2 true cos core).map (fun t => (d, t))
  let ask (s : State) : State := s.toHome r a 8 1 0 []
  if (owns s).isSome then change s
  else if (s.agentLine a r.line).isSome then change (← (ask s).homeOwnReq r a true (BitVec.allOnes 128) cos)
  else
    let s ← s.l2MakeRoom a r.line cos
    let s ← (ask s).homeOwnReq r a true (BitVec.allOnes 128) cos
    let (d, s) ← change s
    let s ← s.unallocated a r cos
    return (d, s)

end Sys2Proof.Machine
end

