-- ==== Sys2Proof/Machine/Translate.lean ====
section
/-! DEFINITION. Sys2Proof/Machine/Translate.lean: descriptors (R346–R349), address checks (R40–R42), the walk of an
object table (R350–R353) and protection keys (R354). -/

namespace Sys2Proof.Machine

/-! ### Pointers (R38, R39) -/

/-- Space tag. -/
def ptrTag (p : Word64) : Nat := fieldOf p 62 2
/-- Object number. -/
def ptrObj (p : Word64) : Nat := fieldOf p 40 22
/-- Byte offset. -/
def ptrOff (p : Word64) : Nat := fieldOf p 0 40
/-- Line number N = ptr[61:7] (R287). -/
def ptrLineNo (p : Word64) : Nat := fieldOf p 7 55
/-- The pointer with another offset. -/
def ptrWithOff (p : Word64) (off : Nat) : Word64 := BitVec.ofNat 64 (fieldOf p 40 24 * 2 ^ 40 + off % 2 ^ 40)
/-- Core field of an on-chip map pointer. -/
def ptrCore (p : Word64) : Nat := fieldOf p 43 9
/-- Window field. -/
def ptrWindow (p : Word64) : Nat := fieldOf p 40 3

/-- The space an opcode accepts (R41). -/
inductive Space where
  /-- Control space. -/
  | control
  /-- Tensor space. -/
  | tensor
  /-- On-chip map. -/
  | onchip
  /-- Own team's scratchpad. -/
  | scratch
  deriving DecidableEq, Repr

/-- Its tag. -/
def Space.tag : Space → Nat
  | .control => 0 | .tensor => 1 | .onchip => 2 | .scratch => 0

/-- What an access does. -/
inductive Kind where
  /-- Read. -/
  | read
  /-- Write. -/
  | write
  /-- Read-modify-write. -/
  | atomic
  deriving DecidableEq, Repr

/-- An address and whether its formation carried out of its field or borrowed (R40). -/
def formAddress (scratch : Bool) (base : Word64) (delta : Int) : Word64 × Bool :=
  if scratch then
    let x : Int := (fieldOf base 0 32 : Int) + delta
    (BitVec.ofNat 64 (fieldOf base 32 32 * 2 ^ 32 + lowBits 32 x), x < 0 || (2 : Int) ^ 32 ≤ x)
  else
    let x : Int := (ptrOff base : Int) + delta
    (ptrWithOff base (lowBits 40 x), x < 0 || (2 : Int) ^ 40 ≤ x)

/-! ### Logical and physical cores (R343) -/

/-- Physical cluster of a logical one. -/
def physCluster (cmap : Word64) (i : Nat) : Nat := fieldOf cmap (4 * i) 4
/-- Physical core of a logical one. -/
def physCore (cmap : Word64) (c : Nat) : Nat := physCluster cmap (c / 32) * 32 + c % 32
/-- Logical cluster of a physical one. -/
def logCluster (cmap : Word64) (p : Nat) : Nat := ((List.range 16).find? (fun i => physCluster cmap i = p)).getD p
/-- Logical core of a physical one. -/
def logCore (cmap : Word64) (c : Nat) : Nat := if 512 ≤ c then c % 512 else logCluster cmap (c / 32) * 32 + c % 32

/-! ### Descriptors (R347) -/

/-- A valid descriptor. -/
structure Desc where
  /-- Rights. -/
  rd : Bool
  /-- Write. -/
  wr : Bool
  /-- Atomic. -/
  atom : Bool
  /-- DERIV -/
  deriv : Bool
  /-- SPACE: tensor. -/
  tensor : Bool
  /-- TOPLVL -/
  toplvl : Nat
  /-- LENGTH -/
  length : Nat
  /-- ROOT -/
  root : Nat
  /-- BIAS -/
  bias : Nat
  deriving DecidableEq, Repr

/-- The descriptor in 32 bytes, unless R347 calls it invalid for a pointer of that space. -/
def decodeDesc (w : DescWord) (tensor : Bool) : Option Desc :=
  if fieldOf w 0 1 = 1 ∧ (fieldOf w 1 1 = 1) = tensor ∧ fieldOf w 6 3 ≤ 4 ∧ fieldOf w 9 55 = 0 ∧
      fieldOf w 105 23 = 0 ∧ fieldOf w 184 8 = 0 ∧ fieldOf w 232 24 = 0 then
    some ⟨w.getLsbD 2, w.getLsbD 3, w.getLsbD 4, w.getLsbD 5, w.getLsbD 1, fieldOf w 6 3, fieldOf w 64 41, fieldOf w 128 56, fieldOf w 192 40⟩
  else none

/-- The rights permit a kind of access. -/
def Desc.permits (d : Desc) : Kind → Bool
  | .read => d.rd | .write => d.wr | .atomic => d.atom

/-- The object root entry of a context. -/
def State.root (s : State) (x : Nat) : Root := tabGet ⟨0, 0⟩ s.roots x

/-- Descriptors a core caches. -/
def descCacheSize : Nat := 256

/-- The descriptor of an object, from the core's cache or through the die's L2 (R349); none for a number that the
table does not hold. A line that cannot be read gives none. -/
def State.lookupDesc (s : State) (core x obj : Nat) : Option DescWord × State :=
  let root := s.root x
  if obj = 0 ∨ root.onum ≤ obj then (none, s)
  else
    let k := s.core core
    match k.descs.find? (fun d => d.ctx = x ∧ d.obj = obj) with
    | some d => (some d.desc, s.setCore core { k with descs := d :: k.descs.filter (fun e => !(e.ctx = x ∧ e.obj = obj)) })
    | none =>
      let pa := root.otbase + 32 * obj
      let r := s.homeRef ⟨paLine pa, paModule pa⟩
      match s.agentRead (s.coreAgent core) r (byteMask (pa % 128) 32) (s.ctx x).cos.toNat with
      | .ok (line, s) =>
        let w : DescWord := line.extractLsb' (8 * (pa % 128)) 256
        (some w, s.onCore core (fun k => { k with descs := (⟨x, obj, r.line, w⟩ :: k.descs).take descCacheSize }))
      | .error _ => (none, s)

/-- Descriptors with which an access was checked, by object (R349). -/
abbrev Descs := List (Nat × DescWord)

/-- The descriptor of an object for an access: the one it was checked with, or the one that stands now. -/
def State.descWith (s : State) (core x obj : Nat) (ds : Descs) : Option DescWord × State :=
  match ds.find? (fun e => e.1 == obj) with
  | some e => (some e.2, s)
  | none => s.lookupDesc core x obj

/-- Descriptors that stand for the objects of some pointers. -/
def State.descsOf (s : State) (core x : Nat) (ps : List Word64) : Descs :=
  (((ps.filter (fun p => ptrTag p < 2)).map ptrObj).eraseDups).filterMap (fun o => (s.lookupDesc core x o).1.map (fun w => (o, w)))

/-! ### The walk (R350, R351, R363) -/

/-- Where an access fails at the memory port (R355, R427). -/
inductive PortFault where
  /-- Translation not present, or malformed (class 6), with the physical addresses of the words whose write wakes the
  access: the entry at which the walk stopped, and the descriptor. -/
  | walk (malformed : Bool) (stops : List Nat)
  /-- Another fault class, with its cause. -/
  | cls (c cause : Nat)
  /-- No fault: the die makes no new translation of the page yet (R378), and the access tries again. -/
  | wait
  deriving DecidableEq, Repr

/-- Shift of an entry's index at a level. -/
def entryShift (lvl : Nat) : Nat := 36 - 6 * lvl
/-- Entries of a node. -/
def nodeEntries (lvl : Nat) : Nat := if lvl = 0 then 16 else 64
/-- Bytes a node of a level covers. -/
def coverage (lvl : Nat) : Nat := if lvl = 0 then 2 ^ 40 else 2 ^ (12 + 6 * (5 - lvl))

/-- A translation: physical address, key and MIRROR; the node lines read. -/
structure Xlat where
  /-- Physical address. -/
  pa : Nat
  /-- Protection key. -/
  key : Nat
  /-- MIRROR. -/
  mirror : Nat
  deriving DecidableEq, Repr

/-- The line of a translation as its leaf names it. -/
def Xlat.ref (t : Xlat) : LineRef := ⟨paLine t.pa, t.mirror⟩

/-- Classes 11, 12, 19 of an agent's refusal as a port fault. -/
def portOf (c : Nat) : PortFault := .cls c 0

/-- The 8-byte words of a descriptor. -/
def descWords (root : Root) (obj : Nat) : List Nat := (List.range 4).map (fun i => root.otbase + 32 * obj + 8 * i)

/-- Entries of a page's group that are the same word as an entry, next to one another about it: the first, and how many. They
are looked for in the line that holds the entry, which holds a group whole where its node is aligned. -/
def sameEntries (line : Line) (node i k : Nat) : Nat × Nat :=
  let word (j : Nat) : Nat := lineField line (8 * ((node + 8 * j) % 128)) 64
  let same (j : Nat) : Bool := paLine (node + 8 * j) == paLine (node + 8 * i) && word j == word i
  let below := ((List.range (i % k)).map (fun d => i - 1 - d)).takeWhile same
  let above := ((List.range (k - 1 - i % k)).map (fun d => i + 1 + d)).takeWhile same
  (i - below.length, below.length + 1 + above.length)

/-- Walk from a node (R350): the translation, the range of the offsets of its page that it serves (those of entries like its
own), and the node lines read; `fuel` is the number of levels left. A node at an absent address is malformed (R345). -/
def State.walkFrom (s : State) (agent cos : Nat) (tensor : Bool) (x : Nat) :
    Nat → Nat → Nat → List Nat → Except PortFault (Xlat × (Nat × Nat) × List Nat × State)
  | 0, _, _, _ => .error (.walk true [])
  | fuel + 1, lvl, node, nodes =>
    let i := (x >>> entryShift lvl) % nodeEntries lvl
    let ea := node + 8 * i
    let r := s.homeRef ⟨paLine ea, paModule ea⟩
    let nodes := r.line :: nodes
    match s.agentRead agent r (byteMask (ea % 128) 8) cos with
    | .error c => .error (portOf c)
    | .ok (line, s) =>
      let e : Word64 := line.extractLsb' (8 * (ea % 128)) 64
      match fieldOf e 0 2 with
      | 0 => .error (.walk false [ea])
      | 1 =>
        if fieldOf e 2 7 ≠ 0 ∨ fieldOf e 56 8 ≠ 0 ∨ lvl = 4 ∨ !paPresent (fieldOf e 9 47 * 512) then .error (.walk true [ea])
        else s.walkFrom agent cos tensor x fuel (lvl + 1) (fieldOf e 9 47 * 512) nodes
      | 2 =>
        let n := fieldOf e 2 4
        let g := 3 * (4 - lvl)
        let frame := fieldOf e 12 44 * 4096
        let mirror := fieldOf e 56 8
        let size := 4096 * 4 ^ n
        let pa := frame + x % size
        if fieldOf e 11 1 ≠ 0 ∨ lvl = 0 ∨ n < g ∨ g + 2 < n ∨ 11 < n ∨ frame % size ≠ 0 ∨ !paPresent pa ∨
            (if tensor then mirror ≠ 0 else !inPrimary frame ∨ mirror = paModule frame) then .error (.walk true [ea])
        else
          let (first, count) := sameEntries line node i (4 ^ (n - g))
          .ok (⟨pa, fieldOf e 6 5, mirror⟩, (((x >>> entryShift lvl) - i + first) * 4 ^ g, count * 4 ^ g), nodes, s)
      | _ => .error (.walk true [ea])

/-- Translations that a slice caches (R352). -/
def sliceXlats : Nat := 32

/-- Two lines of objects are translated at the same slice. -/
def sameSlice (o l o' l' : Nat) : Bool :=
  (o == o' && l == l') || Config.sliceOf o l % l2Slices == Config.sliceOf o' l' % l2Slices

/-- Cache a translation at the slice of its line; a full slice gives up the one that it has held longest: DESIGN CHOICE (log
162). -/
def State.addXlat (s : State) (t : CachedXlat) : State :=
  let here (u : CachedXlat) : Bool := u.die == t.die && sameSlice u.obj u.line t.obj t.line
  let full := sliceXlats ≤ s.xlats.length && sliceXlats ≤ (s.xlats.filter here).length
  { s with xlats := t :: (if full then
      (match (s.xlats.filter here).getLast? with
        | some v => s.xlats.erase v
        | none => s.xlats)
    else s.xlats) }

/-- Requests under a dropped translation of a page are outstanding, so that the die makes no new one (R378). -/
def State.pageHeld (s : State) (die otbase obj page : Nat) : Bool :=
  s.oldPages.any (fun o => o.die == die && o.otbase == otbase && o.obj == obj && o.page ≤ page && page < o.page + o.pages && s.pageBusy o)

/-- A cached translation is of a descriptor's table and of a page that holds an offset. -/
def CachedXlat.covers (t : CachedXlat) (die otbase obj : Nat) (d : Desc) (v : Nat) : Bool :=
  t.die == die && t.otbase == otbase && t.obj == obj && t.root == d.root && t.toplvl == d.toplvl && t.page ≤ v / 4096 &&
    v / 4096 < t.page + t.pages

/-- The translation of an offset in its page. -/
def CachedXlat.at (t : CachedXlat) (v : Nat) : Xlat := ⟨t.pa + (v - 4096 * t.page), t.key, t.mirror⟩

/-- Translate an offset of an object (R350, R352): a translation that the slice caches, one walked for another miss of the page
on the die in the same cycle, or a walk that is then cached. -/
def State.translate (s : State) (core x obj : Nat) (d : Desc) (off : Nat) : Except PortFault (Xlat × State) :=
  let root := s.root x
  let die := coreDie core
  let v := off + d.bias
  match s.xlats.find? (fun t => t.covers die root.otbase obj d v && sameSlice obj t.line obj (v / 128)) with
  | some t => .ok (t.at v, s)
  | none =>
    match s.xlats.find? (fun t => t.covers die root.otbase obj d v && t.walked == s.time) with
    | some t => .ok (t.at v, s.addXlat { t with line := v / 128 })
    | none =>
      if s.pageHeld die root.otbase obj (v / 4096) then .error .wait
      else if coverage d.toplvl ≤ v then .error (.walk false (descWords root obj))
      else if !paPresent d.root then .error (.walk true (descWords root obj))
      else
        match s.walkFrom (s.coreAgent core) (s.ctx x).cos.toNat d.tensor v 5 d.toplvl d.root [] with
        | .error f => .error f
        | .ok (t, (page, pages), nodes, s) =>
          .ok (t, s.addXlat ⟨die, root.otbase, obj, d.root, d.toplvl, v / 128, page, pages, t.pa - (v - 4096 * page), t.key,
            t.mirror, nodes, s.time⟩)

/-- The PKR refuses a kind of access to a key (R354). -/
def pkrRefuses (pkr : Word64) (key : Nat) (kind : Kind) : Bool :=
  pkr.getLsbD (2 * key + 1) || (pkr.getLsbD (2 * key) && kind != .read)

/-- Translate a pointer and check its key for a kind of access, with the descriptor that the access was checked with (R349). A
descriptor that has gone is not present. -/
def State.port (s : State) (core x : Nat) (p : Word64) (kind : Kind) (ds : Descs := []) : Except PortFault (Xlat × State) :=
  let (w, s) := s.descWith core x (ptrObj p) ds
  match w.bind (fun w => decodeDesc w (ptrTag p == 1)) with
  | none => .error (.walk false (descWords (s.root x) (ptrObj p)))
  | some d =>
    match s.translate core x (ptrObj p) d (ptrOff p) with
    | .error (.walk m ls) => .error (.walk m ((ls ++ descWords (s.root x) (ptrObj p)).eraseDups))
    | .error f => .error f
    | .ok (t, s) => if pkrRefuses (s.ctx x).pkr t.key kind then .error (.cls 5 0) else .ok (t, s)

/-! ### On-chip windows (R39) -/

/-- Bytes of a core's scratchpad. -/
def scratchSize : Nat := 983040

/-- A range of core scratchpad addresses lies within one allocation after another of resident teams. -/
def Core.scratchOwned (k : Core) (a n : Nat) : Bool :=
  a + n ≤ scratchSize &&
    (List.range (if n = 0 then 0 else (a + n - 1) / 128 - a / 128 + 1)).all (fun i =>
      k.teams.any (fun t => t.2.base ≤ a / 128 + i && a / 128 + i < t.2.base + t.2.bytes / 128))

/-- WindowValid of R42. -/
def Core.windowValid (k : Core) (window off n : Nat) : Bool :=
  match window with
  | 0 =>
    let reg := (off >>> 7) % 256
    let byte := off % 128
    match tabFind k.groups (off >>> 15) with
    | some g =>
      byte % 4 == 0 && n % 4 == 0 &&
        ((reg < g.budget && byte + n ≤ 128) || (192 ≤ reg && reg ≤ 239 && byte + n ≤ 8))
    | none => false
  | 1 => k.scratchOwned off n
  | 2 => off % 4 == 0 && n % 4 == 0 && off + n ≤ 524288
  | _ => false

/-! ### Checks at issue (R42) -/

/-- CheckAddress of R42: the fault class of a lane's address, if it has one. `own` restricts on-chip accesses to the
issuing core's cluster; `align` is the alignment that the access needs (R75). -/
def State.checkAddress (s : State) (core x team : Nat) (p : Word64) (carried : Bool) (size align : Nat) (sp : Space)
    (kind : Kind) (own : Bool) : Option Nat × State :=
  if sp = .scratch then
    if fieldOf p 32 32 ≠ 0 then (some 2, s)
    else
      let bytes := ((tabFind (s.core core).teams team).map Team.bytes).getD 0
      if carried ∨ bytes < fieldOf p 0 32 + size ∨ fieldOf p 0 32 % align ≠ 0 then (some 3, s) else (none, s)
  else if ptrTag p ≠ sp.tag then (some 2, s)
  else if carried ∨ ptrOff p % align ≠ 0 then (some 3, s)
  else if sp = .onchip then
    let cmap := (s.ctx x).cmap
    if fieldOf p 52 10 ≠ 0 ∨ 2 < ptrWindow p then (some 3, s)
    else if own ∧ ptrCore p / 32 ≠ logCluster cmap (core / 32) then (some 4, s)
    else if !(s.core (physCore cmap (ptrCore p))).windowValid (ptrWindow p) (ptrOff p) size then (some 3, s)
    else (none, s)
  else
    let (w, s) := s.lookupDesc core x (ptrObj p)
    match w.bind (fun w => decodeDesc w (sp == .tensor)) with
    | none => (some 3, s)
    | some d =>
      if d.length < ptrOff p + size then (some 3, s)
      else if !d.permits kind then (some 4, s)
      else (none, s)

end Sys2Proof.Machine
end

