-- ==== Sys2Proof/Machine/Cache.lean ====
section
/-! DEFINITION. Sys2Proof/Machine/Cache.lean: a core's L1 and its sheaves: fills, publication, release, acquire,
invalidation and promotion (R161, R162, R175, R286–R291). -/

namespace Sys2Proof.Machine

/-! ### Sheaf indices (R287) -/

/-- Fold9. -/
def fold9 (x : Nat) : Nat := (List.range 7).foldl (fun f k => f ^^^ ((x >>> (9 * k)) % 512)) 0
/-- Rotl55 by 7. -/
def rotl55 (x : Nat) : Nat := (x * 2 ^ 7 % 2 ^ 55) ||| (x >>> 48)
/-- The three indices of a line number. -/
def sheafIndices (n : Nat) : Nat × Nat × Nat := (fold9 n, fold9 (n >>> 3) ^^^ 0x0A5, fold9 (rotl55 n) ^^^ 0x15A)
/-- A sheaf that holds one line. -/
def sheafBits (n : Nat) : Sheaf :=
  let i := sheafIndices n
  ((1 : Sheaf) <<< i.1) ||| ((1 : Sheaf) <<< i.2.1) ||| ((1 : Sheaf) <<< i.2.2)
/-- A line hits a sheaf. -/
def sheafHit (f : Sheaf) (n : Nat) : Bool := f &&& sheafBits n == sheafBits n
/-- Number of set bits. -/
def sheafPop (f : Sheaf) : Nat := popCount 512 f.toNat

/-- SHEAF of a sync line (R173). -/
def lineSheaf (d : Line) : Sheaf := d.extractLsb' 512 512
/-- POP of a sync line. -/
def linePop (d : Line) : Nat := lineField d 64 16
/-- EPOCH of a sync line. -/
def lineEpoch (d : Line) : Nat := lineField d 96 32
/-- A sync line's bytes from its fields. -/
def syncLine (value epoch : Nat) (f : Sheaf) : Line :=
  BitVec.ofNat 1024 (value % 2 ^ 64 + sheafPop f * 2 ^ 64 + epoch % 2 ^ 32 * 2 ^ 96 + f.toNat * 2 ^ 512)

/-! ### Owing bits and sheaves of a core (R288) -/

/-- Set the owing bit of a group. -/
def Core.setOwes (k : Core) (slot : Nat) (b : Bool) : Core :=
  { k with groups := tabMod k.groups slot (fun g => { g with owes := b }) }

/-- ControlWrite. -/
def Core.controlWrite (k : Core) (x slot n : Nat) : Core :=
  { k with fresh := tabSet 0 k.fresh x (tabGet 0 k.fresh x ||| sheafBits n) }.setOwes slot true

/-- The pending sheaf. -/
def Core.pending (k : Core) (x : Nat) : Sheaf := tabGet 0 k.fresh x ||| tabGet 0 k.carry x

/-- Some resident group of the context owes a release. -/
def Core.owing (k : Core) (x : Nat) : Bool := k.groups.any (fun g => g.2.ctx == x && g.2.owes)

/-- Release on a core's sheaves: CARRY takes the pending sheaf unless nobody owes. -/
def Core.releaseSheaf (k : Core) (x slot : Nat) : Core :=
  let f := k.pending x
  let k := { k with fresh := tabDel k.fresh x }.setOwes slot false
  { k with carry := if k.owing x then tabSet 0 k.carry x f else tabDel k.carry x }

/-- Acquire on a core's sheaves. -/
def Core.acquireSheaf (k : Core) (x slot : Nat) (f : Sheaf) : Core :=
  if f = 0 then k else { k with fresh := tabSet 0 k.fresh x (tabGet 0 k.fresh x ||| f) }.setOwes slot true

/-! ### Lines of the L1 -/

/-- Key of an L1 line. -/
def l1Key (x n : Nat) : Nat := x * 2 ^ 55 + n
/-- Context of a key. -/
def l1Ctx (k : Nat) : Nat := k / 2 ^ 55
/-- Line number of a key. -/
def l1No (k : Nat) : Nat := k % 2 ^ 55

/-- The line a core caches for a pointer. -/
def State.l1Find (s : State) (core x : Nat) (p : Word64) : Option L1Line :=
  tabFind (s.core core).l1 (l1Key x (ptrLineNo p))

/-- Physical line and mirror home of an L1 line. -/
def L1Line.ref (y : L1Line) : HomeRef := ⟨y.pline, y.slot⟩

/-- Change one L1 line. -/
def State.setL1 (s : State) (core key : Nat) (y : L1Line) : State :=
  s.onCore core (fun k => { k with l1 := tabPut k.l1 key y })

/-- Remove one L1 line. -/
def State.dropL1 (s : State) (core key : Nat) : State := s.onCore core (fun k => { k with l1 := tabDel k.l1 key })

/-- A sync line. -/
def State.isSync (s : State) (l : Nat) : Bool := (s.dirOf l).sync

/-- Held lines of a core at most (R290). -/
def heldMax : Nat := 16

/-- Clear a held mark. -/
def State.clearHeld (s : State) (l : Nat) : State :=
  let d := s.dirOf l
  let s := match d.held with
    | some h => s.onCore h.core (fun k => { k with held := k.held.filter (· != l) })
    | none => s
  s.setDir l { d with held := none }

/-- Publish the unpublished bytes of an L1 line to its die's L2 (R162). A line held by another core is promoted first
(R291); `promoteFirst` does that. Bytes that no home takes are lost. -/
def State.publishWith (promoteFirst : State → Nat → State) (s : State) (core key : Nat) : State :=
  match tabFind (s.core core).l1 key with
  | none => s
  | some y =>
    if y.dirty = 0 then s
    else
      let other := match (s.dirOf y.pline).held with
        | some h => h.core != core && y.dirty &&& byteMask 0 8 != 0
        | none => false
      let s := if other then promoteFirst s y.pline else s
      let s := match s.agentWrite (s.coreAgent core) y.ref y.data y.dirty (s.isSync y.pline) (s.ctx (l1Ctx key)).cos.toNat (some core) with
        | .ok s => s
        | .error _ => s
      s.setL1 core key { y with dirty := 0 }

/-- Publish every unpublished byte of a context on a core. -/
def State.publishAllWith (promoteFirst : State → Nat → State) (s : State) (core x : Nat) : State :=
  ((s.core core).l1.filter (fun e => l1Ctx e.1 == x)).foldl (fun s e => s.publishWith promoteFirst core e.1) s

/-- Promotion of a held line (R291). `fuel` bounds promotions that a promotion's publications cause. -/
def State.promote : Nat → State → Nat → State
  | 0, s, l => s.clearHeld l
  | fuel + 1, s, l =>
    match (s.dirOf l).held with
    | none => s
    | some h =>
      let s := s.clearHeld l
      let s := s.publishAllWith (State.promote fuel) h.core h.ctx
      let f := (s.core h.core).pending h.ctx
      let s := s.onCore h.core (fun k => k.releaseSheaf h.ctx h.slot)
      match s.agentUpdate (s.coreAgent h.core) (s.keyRef l) (s.ctx h.ctx).cos.toNat (some h.core)
          (fun d => (syncLine (lineField d 0 64) (lineEpoch d) (lineSheaf d ||| f), ~~~(byteMask 0 8))) with
      | .ok (_, s) => s
      | .error _ => s

/-- Promotions nest at most once per held line of the domain's cores; 64 levels are never reached. -/
def promoteFuel : Nat := 64

/-- Promote a line. -/
def State.promoteLine (s : State) (l : Nat) : State := State.promote promoteFuel s l

/-- Publish one line. -/
def State.publish (s : State) (core key : Nat) : State := s.publishWith State.promoteLine core key

/-- Publish a context's bytes on a core. -/
def State.publishAll (s : State) (core x : Nat) : State := s.publishAllWith State.promoteLine core x

/-- Gather every line of the core's die into which the core has published as Pw (R371). -/
def State.gatherPublished (s : State) (core : Nat) : State :=
  let a := s.coreAgent core
  (s.l2.filter (fun e => e.1 / 2 ^ 49 = a ∧ e.2.published.contains core)).foldl (fun s e =>
    let l := e.1 % 2 ^ 49
    match s.gather (s.keyRef l) with
    | .ok s => s
    | .error _ => s) s

/-- Remove an L1 line; its unpublished bytes are written back first. -/
def State.evictL1 (s : State) (core key : Nat) : State := (s.publish core key).dropL1 core key

/-- Ways of an L1 set. -/
def l1Ways : Nat := 16

/-- Sets of the L1. -/
def l1Sets : Nat := 512

/-- The set of a line number. -/
def l1SetOf (n : Nat) : Nat := Config.l1Set n % l1Sets

/-- Pinned ways of a set. -/
def Core.pinMask (k : Core) (set : Nat) : BitVec 16 := tabGet 0 k.pins set ||| tabGet 0 k.barnPins set

/-- Ways of a mask. -/
def wayCount (m : BitVec 16) : Nat := ((List.range l1Ways).filter (fun w => m.getLsbD w)).length

/-- Ways pinned in a set. -/
def Core.pinned (k : Core) (set : Nat) : Nat := wayCount (k.pinMask set)

/-- An invalid way of a set: one that the core uses in no set, or else the lowest that it does not use in this one. Which of
several is taken is a DESIGN CHOICE (log 185), seen by nothing but the line map (R260). -/
def Core.spareWay (k : Core) (set : Nat) : Option Nat :=
  let everywhere := (k.pins ++ k.barnPins).foldl (fun m e => m ||| e.2) (0 : BitVec 16)
  match (List.range l1Ways).find? (fun w => !everywhere.getLsbD w && k.l1.all (fun e => e.2.way != w)) with
  | some w => some w
  | none => (List.range l1Ways).find? (fun w =>
      !(k.pinMask set).getLsbD w && k.l1.all (fun e => e.2.way != w || l1SetOf (l1No e.1) != set))

/-- Take a way of a set (R16, R262): an invalid one, or that of the least recently used cached line, which leaves. -/
def State.takeWay (s : State) (core set : Nat) : Nat × State :=
  let k := s.core core
  match k.spareWay set with
  | some w => (w, s)
  | none =>
    match k.l1.filter (fun e => l1SetOf (l1No e.1) = set) with
    | [] => (0, s)
    | e :: es =>
      let v := es.foldl (fun b y => if y.2.used < b.2.used then y else b) e
      (v.2.way, s.evictL1 core v.1)

/-- The L1 line of a pointer, filled through the memory port on a miss; the key is checked either way (R354). -/
def State.l1Line (s : State) (core x : Nat) (p : Word64) (kind : Kind) (ds : Descs := []) : Except PortFault (L1Line × State) :=
  let key := l1Key x (ptrLineNo p)
  match s.l1Find core x p with
  | some y =>
    if pkrRefuses (s.ctx x).pkr y.key kind then .error (.cls 5 0)
    else
      let y := { y with used := (s.core core).l1Use }
      .ok (y, (s.setL1 core key y).onCore core (fun k => { k with l1Use := k.l1Use + 1 }))
  | none =>
    match s.port core x p kind ds with
    | .error f => .error f
    | .ok (t, s) =>
      let r := s.homeRef t.ref
      match s.agentRead (s.coreAgent core) r (BitVec.allOnes 128) (s.ctx x).cos.toNat with
      | .error c => .error (portOf c)
      | .ok (d, s) =>
        let (way, s) := s.takeWay core (l1SetOf (ptrLineNo p))
        let y : L1Line := ⟨r.line, r.slot, t.key, d, 0, (s.core core).l1Use, way⟩
        .ok (y, (s.setL1 core key y).onCore core (fun k => { k with l1Use := k.l1Use + 1 }))

/-- A read of n bytes within one line, through L1. -/
def State.l1Read (s : State) (core x : Nat) (p : Word64) (n : Nat) (ds : Descs := []) : Except PortFault (List Byte × State) :=
  match s.l1Line core x p .read ds with
  | .error f => .error f
  | .ok (y, s) => .ok (lineBytes y.data (ptrOff p % 128) n, s)

/-- A write of bytes within one line, into L1, left unpublished. -/
def State.l1Write (s : State) (core x : Nat) (p : Word64) (bs : List Byte) (kind : Kind) (ds : Descs := []) : Except PortFault State :=
  match s.l1Line core x p kind ds with
  | .error f => .error f
  | .ok (y, s) =>
    let m := byteMask (ptrOff p % 128) bs.length
    .ok (s.setL1 core (l1Key x (ptrLineNo p))
      { y with data := mergeLine y.data (placeBytes (ptrOff p % 128) bs) m, dirty := y.dirty ||| m })

/-! ### Acquire and release (R175, R286, R289) -/

/-- Invalidate every line of the context on a core; unpublished bytes are written back first. -/
def State.invalidateL1 (s : State) (core x : Nat) : State :=
  let s := s.publishAll core x
  s.onCore core (fun k => { k with l1 := k.l1.filter (fun e => l1Ctx e.1 != x) })

/-- Invalidate the lines of the context whose three indices hit a sheaf. -/
def State.invalidateHits (s : State) (core x : Nat) (f : Sheaf) : State :=
  let hit (e : Nat × L1Line) : Bool := l1Ctx e.1 == x && sheafHit f (l1No e.1)
  let lines := (s.core core).l1.filter hit
  let s := lines.foldl (fun s e => s.publish core e.1) s
  s.onCore core (fun k => { k with l1 := k.l1.filter (fun e => !hit e), hitCount := k.hitCount + lines.length })

/-- The acquire of a group at SCOPE 1–3 that read a line: selective on VALUE of a sync line, full otherwise. -/
def State.acquireLine (s : State) (core x slot : Nat) (sync : Bool) (d : Line) : State :=
  if sync then
    let f := lineSheaf d
    let s := if linePop d ≤ 256 then s.invalidateHits core x f else s.invalidateL1 core x
    s.onCore core (fun k => k.acquireSheaf x slot f)
  else s.invalidateL1 core x

/-- The release half at SCOPE 1–3: publish, and gather what was published as Pw. -/
def State.releaseCore (s : State) (core x : Nat) : State := (s.publishAll core x).gatherPublished core

/-- The line is held by a core other than this one. -/
def State.heldElsewhere (s : State) (core l : Nat) : Bool :=
  match (s.dirOf l).held with
  | some h => h.core != core || h.module != s.moduleId.toNat
  | none => false

/-- The line is held by a core whose agent is not this core's. -/
def State.heldAway (s : State) (core l : Nat) : Bool :=
  match (s.dirOf l).held with
  | some h => h.module * 8 + coreDie h.core != s.coreAgent core
  | none => false

/-- Refresh the core's copy of a line with bytes just read at L2 (R161). -/
def State.refreshL1 (s : State) (core x : Nat) (p : Word64) (d : Line) (m : ByteMask) : State :=
  match s.l1Find core x p with
  | some y => s.setL1 core (l1Key x (ptrLineNo p)) { y with data := mergeLine y.data d m }
  | none => s

/-- Publish what the core has written in a line and not published (R161). -/
def State.publishOwn (s : State) (core x : Nat) (p : Word64) : State :=
  if (s.l1Find core x p).isSome then s.publish core (l1Key x (ptrLineNo p)) else s

/-- A read performed at L2 (R161) of bytes of a translated line: own unpublished bytes first; an acquire recalls a line that another
core holds, and a read with the acquire bit one that another agent holds (R291, R372). The whole line is returned, of which the
bytes read are valid; it is all read where the agent holds it whole (R364). -/
def State.l2ReadAt (s : State) (core x : Nat) (p : Word64) (t : Xlat) (m : ByteMask) (acquire bit : Bool) :
    Except PortFault (Line × Nat × State) :=
  let r := s.homeRef t.ref
  let s := s.publishOwn core x p
  let s := if (acquire && s.heldElsewhere core r.line) || (bit && s.heldAway core r.line) then s.promoteLine r.line else s
  let m := if s.isSync r.line then BitVec.allOnes 128 else m
  match s.agentRead (s.coreAgent core) r m (s.ctx x).cos.toNat bit with
  | .error c => .error (portOf c)
  | .ok (d, s) =>
    let part := ((s.agentLine (s.coreAgent core) r.line).map (fun y => y.state == .pw)).getD false
    .ok (d, r.line, s.refreshL1 core x p d (if part then m else BitVec.allOnes 128))

/-- A read performed at L2 (R161). -/
def State.l2Read (s : State) (core x : Nat) (p : Word64) (m : ByteMask) (acquire bit : Bool) (kind : Kind) (ds : Descs := []) :
    Except PortFault (Line × Nat × State) :=
  match s.port core x p kind ds with
  | .error f => .error f
  | .ok (t, s) => s.l2ReadAt core x p t m acquire bit

/-- Bytes performed at L2 update any copy in the issuing core's L1, whose older unpublished bytes they replace. -/
def State.l1Update (s : State) (core x : Nat) (p : Word64) (d : Line) (m : ByteMask) : State :=
  match s.l1Find core x p with
  | some y => s.setL1 core (l1Key x (ptrLineNo p)) { y with data := mergeLine y.data d m, dirty := y.dirty &&& ~~~m }
  | none => s

/-- A write to VALUE of a line that another core holds promotes it first (R291). -/
def State.promoteFor (s : State) (core l : Nat) (m : ByteMask) : State :=
  if s.heldElsewhere core l && m &&& byteMask 0 8 != 0 then s.promoteLine l else s

/-- A write of the bytes of a mask of a translated line, performed at L2 and in any copy of the issuing core's L1. -/
def State.l2WriteAt (s : State) (core x : Nat) (p : Word64) (t : Xlat) (d : Line) (m : ByteMask) (whole : Bool) :
    Except PortFault (Nat × State) :=
  let r := s.homeRef t.ref
  let s := s.promoteFor core r.line m
  match s.agentWrite (s.coreAgent core) r d m (whole || s.isSync r.line) (s.ctx x).cos.toNat (some core) with
  | .error c => .error (portOf c)
  | .ok s => .ok (r.line, s.l1Update core x p d m)

/-- A write of the bytes of a mask performed at L2. -/
def State.l2Write (s : State) (core x : Nat) (p : Word64) (d : Line) (m : ByteMask) (whole : Bool) (kind : Kind) (ds : Descs := []) :
    Except PortFault (Nat × State) :=
  match s.port core x p kind ds with
  | .error f => .error f
  | .ok (t, s) => s.l2WriteAt core x p t d m whole

/-- A read and write of a translated line in one, performed at the L2 that owns it after the core's own unpublished bytes of the line
(R166, R167, R367): the line before it. -/
def State.l2UpdateAt (s : State) (core x : Nat) (p : Word64) (t : Xlat) (f : Line → Line × ByteMask) : Except PortFault (Line × State) :=
  let r := s.homeRef t.ref
  let s := s.publishOwn core x p
  match s.agentUpdate (s.coreAgent core) r (s.ctx x).cos.toNat (some core) f with
  | .error c => .error (portOf c)
  | .ok (d, s) => .ok (d, (s.refreshL1 core x p d (BitVec.allOnes 128)).l1Update core x p (f d).1 (f d).2)

end Sys2Proof.Machine
end

