-- ==== Sys2Proof/Machine/FaultLog.lean ====
section
/-! DEFINITION. Sys2Proof/Machine/FaultLog.lean: accesses the module makes on its own behalf in control space, and the
fault logs (R37, R423–R425). -/

namespace Sys2Proof.Machine

/-! ### The module's own accesses -/

/-- Pieces of a byte range within lines: offset from the start, and length. -/
def linePieces (off n : Nat) : List (Nat × Nat) :=
  (List.range (if n = 0 then 0 else (off + n - 1) / 128 - off / 128 + 1)).map (fun i =>
    let lo := max off ((off / 128 + i) * 128)
    let hi := min (off + n) ((off / 128 + i + 1) * 128)
    (lo - off, hi - lo))

/-- Translate a control pointer without key, rights or bounds checks: the module's own structures. -/
def State.sysPort (s : State) (core x : Nat) (p : Word64) (ds : Descs := []) : Except PortFault (Xlat × State) :=
  let (w, s) := s.descWith core x (ptrObj p) ds
  match w.bind (fun w => decodeDesc w (ptrTag p == 1)) with
  | none => .error (.walk false (descWords (s.root x) (ptrObj p)))
  | some d => s.translate core x (ptrObj p) d (ptrOff p)

/-- Read control-space bytes at the L2 of a core's die, as a system-scope acquire recalls them. -/
def State.sysRead (s : State) (core x : Nat) (p : Word64) (n : Nat) : Except PortFault (List Byte × State) :=
  (linePieces (ptrOff p) n).foldlM (fun (acc : List Byte × State) e =>
    let q := ptrWithOff p (ptrOff p + e.1)
    match acc.2.sysPort core x q with
    | .error f => .error f
    | .ok (t, s) =>
      let r := s.homeRef t.ref
      match (s.promoteLine r.line).agentRead (s.coreAgent core) r (byteMask (ptrOff q % 128) e.2) (s.ctx x).cos.toNat with
      | .error c => .error (portOf c)
      | .ok (d, s) => .ok (acc.1 ++ lineBytes d (ptrOff q % 128) e.2, s)) ([], s)

/-- Write control-space bytes at the L2 of a core's die; a held line is promoted first (R365). -/
def State.sysWrite (s : State) (core x : Nat) (p : Word64) (bs : List Byte) : Except PortFault State :=
  (linePieces (ptrOff p) bs.length).foldlM (fun (s : State) e =>
    let q := ptrWithOff p (ptrOff p + e.1)
    match s.sysPort core x q with
    | .error f => .error f
    | .ok (t, s) =>
      let r := s.homeRef t.ref
      match (s.promoteLine r.line).agentWrite (s.coreAgent core) r (placeBytes (ptrOff q % 128) ((bs.drop e.1).take e.2))
          (byteMask (ptrOff q % 128) e.2) (s.isSync r.line) (s.ctx x).cos.toNat none with
      | .error c => .error (portOf c)
      | .ok s => .ok s) s

/-! ### Fault records -/

/-- The fields of a fault record that its raiser gives (R425). -/
structure FaultInfo where
  /-- CLASS -/
  cls : Nat
  /-- LANE -/
  lane : Nat
  /-- OPND -/
  opnd : Nat
  /-- CAUSE -/
  cause : Nat
  /-- CORR -/
  corr : Bool
  /-- REC -/
  prec : Nat
  /-- SLOT -/
  slot : Nat
  /-- CORE, physical; the record shows the logical number. -/
  core : Nat
  /-- ADDR -/
  addr : Word64
  /-- PC -/
  pc : Word64
  /-- LANES -/
  lanes : LaneMask
  /-- DETAIL -/
  detail : Nat
  deriving DecidableEq, Repr

/-- The 64 bytes of a record (R425). -/
def recordBytes (f : FaultInfo) (logical ctx job module : Nat) (time seq : Word64) : List Byte :=
  leBytes 64 (f.cls % 256 + f.lane % 32 * 2 ^ 8 + f.opnd % 4 * 2 ^ 13 + f.cause % 16 * 2 ^ 16 +
    (if f.corr then 2 ^ 20 else 0) + f.prec % 4 * 2 ^ 24 + f.slot % 64 * 2 ^ 26 + logical % 512 * 2 ^ 32 +
    module % 256 * 2 ^ 48 + ctx % 64 * 2 ^ 56 + f.addr.toNat * 2 ^ 64 + f.pc.toNat * 2 ^ 128 + time.toNat * 2 ^ 192 +
    f.lanes.toNat * 2 ^ 256 + f.detail % 2 ^ 96 * 2 ^ 288 + seq.toNat * 2 ^ 384 + job % 2 ^ 16 * 2 ^ 448)

/-- Saturating 32-bit increment. -/
def satInc (n : Nat) : Nat := min (n + 1) (2 ^ 32 - 1)

/-- The header bytes from DROP on that the module rewrites (R424). -/
def LogRegs.counters (g : LogRegs) : List Byte := leBytes 16 (g.drop + g.demote * 2 ^ 32 + g.mcdet * 2 ^ 64 + g.mccor * 2 ^ 96)

/-- Rewrite the RO fields of a header. -/
def State.writeHeader (s : State) (core x : Nat) (log : Word64) (g : LogRegs) : Except PortFault State := do
  let s ← s.sysWrite core x (ptrWithOff log (ptrOff log + 24)) g.counters
  s.sysWrite core x log (leBytes 8 g.widx.toNat)

/-- Append a record to a log (R424): the registers after it, and the record's address (0 when it is dropped). A log
that cannot be reached drops the record. -/
def State.appendRecord (s : State) (core x : Nat) (log : Word64) (g : LogRegs) (bytes : Word64 → List Byte) :
    State × LogRegs × Word64 :=
  match s.sysRead core x log 24 with
  | .error _ => (s, g, 0)
  | .ok (h, s) =>
    let ridx := leNat ((h.drop 8).take 8)
    let logn := fieldOf (BitVec.ofNat 8 (leNat (h.drop 16))) 0 4
    if logn < 4 then (s, g, 0)
    else if (g.widx.toNat + 2 ^ 64 - ridx) % 2 ^ 64 = 2 ^ logn then
      let g := { g with drop := satInc g.drop }
      match s.writeHeader core x log g with
      | .error _ => (s, g, 0)
      | .ok s => (s, g, 0)
    else
      let at_ := ptrWithOff log (ptrOff log + 128 + 64 * (g.widx.toNat % 2 ^ logn))
      match s.sysWrite core x at_ (bytes g.widx) with
      | .error _ => (s, g, 0)
      | .ok s =>
        let g := { g with widx := g.widx + 1 }
        match s.writeHeader core x log g with
        | .error _ => (s, g, at_)
        | .ok s => (s, g, at_)

/-- Write a record to the fault log of a context (R423). -/
def State.logFault (s : State) (x : Nat) (f : FaultInfo) : State × Word64 :=
  let c := s.ctx x
  let (s, g, a) := s.appendRecord f.core x c.flog c.log
    (fun seq => recordBytes f (logCore c.cmap f.core) x c.job.toNat s.moduleId.toNat s.ptime seq)
  (s.setCtx x { s.ctx x with log := g }, a)

/-- Write a record to the module error log (R423): PC 0. -/
def State.logModule (s : State) (f : FaultInfo) : State :=
  let f := { f with pc := 0 }
  let (s, g, _) := s.appendRecord f.core s.errLogCtx s.errLog s.modLog
    (fun seq => recordBytes f f.core 0 0 s.moduleId.toNat s.ptime seq)
  { s with modLog := g }

/-! ### Groups in State -/

/-- A resident group. -/
def State.group (s : State) (core slot : Nat) : Option Group := tabFind (s.core core).groups slot

/-- Change a resident group. -/
def State.onGroup (s : State) (core slot : Nat) (f : Group → Group) : State :=
  s.onCore core (fun k => { k with groups := tabMod k.groups slot f })

/-- Change a path record of a resident group. -/
def State.onPrec (s : State) (core slot i : Nat) (f : PathRec → PathRec) : State :=
  s.onGroup core slot (fun g => g.setPrec i (f (g.prec i)))

/-- Set x.faultaddr and x.faultcode (R36, R37). -/
def State.setFaultRegs (s : State) (core slot : Nat) (f : FaultInfo) : State :=
  s.onGroup core slot (fun g =>
    { g with
      faultaddr := f.addr
      faultcode := BitVec.ofNat 64 (f.cls % 256 + f.lane % 32 * 2 ^ 8 + f.opnd % 4 * 2 ^ 13) })

/-- Raise a fault of a group: the registers first, then the record (R37, R423). -/
def State.recordFault (s : State) (core slot : Nat) (f : FaultInfo) : State × Word64 :=
  match s.group core slot with
  | none => (s, 0)
  | some g => (s.setFaultRegs core slot f).logFault g.ctx f

end Sys2Proof.Machine
end

