-- ==== Sys2Proof/Machine/Path.lean ====
section
/-! DEFINITION. Sys2Proof/Machine/Path.lean: fetch and block headers (R63–R69), path records, the end check (R146),
transfer targets (R141, R142), parks and wakes (R252–R256), ranking and spilling (R140, R228, R243–R247) and the
bins (R248–R250). -/

namespace Sys2Proof.Machine

/-! ### Fetch (R63, R64) -/

/-- What a fetch gives. -/
inductive Fetch where
  /-- The word. -/
  | word (w : Word64)
  /-- A bounds or rights failure (R42). -/
  | cls (c : Nat)
  /-- A failure at the memory port (R355). -/
  | port (f : PortFault)
  deriving DecidableEq, Repr

/-- Fetch the word at an address as a weak control-space read through the core's L1 (R63). DESIGN CHOICE (log 190): before the CCTL and
the transfer of R69 an issue may read the old or the new word; it reads what the L1 holds, so a core's own store to code is seen
at once. -/
def State.fetchWord (s : State) (core x : Nat) (p : Word64) : Fetch × State :=
  match s.checkAddress core x 0 p false 8 8 .control .read true with
  | (some c, s) => (.cls c, s)
  | (none, s) =>
    match s.l1Read core x p 8 with
    | .ok (bs, s) => (.word (BitVec.ofNat 64 (leNat bs)), s)
    | .error f => (.port f, s)

/-- A word is a block header (R64). -/
def isHeader (w : Word64) : Bool := fieldOf w 58 6 == 0b111110
/-- LEN -/
def headerLen (w : Word64) : Nat := fieldOf w 50 8
/-- RECONV as the reconvergence header's address; none when the block names none (R65). -/
def headerReconv (h w : Word64) : Option Word64 :=
  if fieldOf w 34 16 = 0 then none
  else some (ptrWithOff h (lowBits 40 ((ptrOff h : Int) + 8 * signedOf 16 (fieldOf w 34 16))))
/-- VLIVE -/
def headerVlive (w : Word64) : BitVec 24 := w.extractLsb' 10 24
/-- SLIVE -/
def headerSlive (w : Word64) : BitVec 8 := w.extractLsb' 2 8

/-- The next word's address. -/
def nextWord (w : Word64) : Word64 := w + 8

/-! ### Loop frames (R142, R145, R146) -/

/-- The end check of R146 at the address after a word: the frames left, and the loop-back start. -/
def endCheck (w8 : Word64) (depth : BitVec 8) : List Frame → List Frame × Option Word64
  | [] => ([], none)
  | f :: fs =>
    if f.depth = depth ∧ w8 = f.exit then
      if f.count = 1 then endCheck w8 depth fs else ({ f with count := f.count - 1 } :: fs, some f.start)
    else (f :: fs, none)

/-- Frames left by a taken transfer to a target (R142). -/
def popOutside (target : Word64) (depth : BitVec 8) : List Frame → List Frame
  | [] => []
  | f :: fs =>
    if f.depth = depth ∧ !(f.start.toNat ≤ target.toNat && target.toNat < f.exit.toNat) then popOutside target depth fs
    else f :: fs

/-- Place after the word at `place.word` with no taken transfer: the end check, then the next word, which is the next
block's header after a block's last word. -/
def Place.after (p : Place) : Place :=
  let w8 := nextWord p.word
  match endCheck w8 p.depth p.frames with
  | (fs, some start) => { p with word := start, block := start, len := 0, frames := fs, arrived := false }
  | (fs, none) =>
    if w8 = p.block + BitVec.ofNat 64 (8 * (p.len + 1)) then { p with word := w8, block := w8, len := 0, frames := fs, arrived := false }
    else { p with word := w8, frames := fs, arrived := false }

/-- Start of the loop to which the end check after a word goes back (R146). -/
def Place.loopStart (p : Place) : Option Word64 := (endCheck (nextWord p.word) p.depth p.frames).2

/-- Place at a header. -/
def Place.atHeader (p : Place) (h : Word64) : Place := { p with word := h, block := h, len := 0, arrived := false }

/-- Place after a taken transfer by BR, BRD, BRX or LBRK, or a loop's zero-count exit (R142). -/
def Place.transfer (p : Place) (target : Word64) : Place :=
  { p.atHeader target with frames := popOutside target p.depth p.frames }

/-! ### Reconvergence (R244) -/

/-- A running record that stands at its top reconvergence header waits there. -/
def PathRec.stopAtHeader (q : PathRec) : PathRec :=
  if q.state = .running ∧ q.place.stack.head? = some q.place.word then { q with state := .waiting } else q

/-- Pop H and run on, waiting again where the next entry names the same header. A path that came to H in the middle of a
block has arrived there as at a header. -/
def PathRec.popHeader (q : PathRec) : PathRec :=
  ({ q with
    state := .running
    place := { q.place with stack := q.place.stack.tail, arrived := q.place.word != q.place.block } } : PathRec).stopAtHeader

/-- Two different records wait at the same header. -/
def Group.mergePair (g : Group) : Option (Nat × Nat) :=
  [(0, 1), (0, 2), (0, 3), (1, 2), (1, 3), (2, 3)].find? (fun e =>
    (g.prec e.1).state = .waiting ∧ (g.prec e.2).state = .waiting ∧
      (g.prec e.1).place.stack.head? = (g.prec e.2).place.stack.head?)

/-- A record waits at H, and no other record of the group holds H anywhere in its stack. -/
def Group.lone (g : Group) (i : Nat) : Bool :=
  (g.prec i).state == .waiting && (match (g.prec i).place.stack.head? with
    | none => true
    | some h => [0, 1, 2, 3].all (fun j => j == i || (g.prec j).state == .free || !(g.prec j).place.stack.contains h))

/-- The reconvergence steps that the group's records call for now. -/
def Group.reconvEvents (g : Group) (core slot : Nat) : List Instr :=
  match g.mergePair with
  | some _ => [.reconvMerge core slot]
  | none =>
    match [0, 1, 2, 3].find? g.lone with
    | some i => [.reconvLoneResume core slot i]
    | none => []

/-- Every record that stands at its top header stops there; reconvergence that this calls for comes next. -/
def State.settle (s : State) (core slot : Nat) : State :=
  let s := s.onGroup core slot (fun g => { g with recs := g.recs.map (fun q => (q.1, q.2.stopAtHeader)) })
  match s.group core slot with
  | none => s
  | some g => { s with agenda := g.reconvEvents core slot ++ s.agenda }

/-- Move a record to a place: its word is done. -/
def State.goTo (s : State) (core slot i : Nat) (p : Place) : State :=
  (s.onPrec core slot i (fun q => { q with place := p, answer := none, arrive := none, drained := none })).settle core slot

/-- The record goes on after its word (R146). -/
def State.advance (s : State) (core slot i : Nat) : State :=
  (s.onPrec core slot i (fun q => { q with place := q.place.after, answer := none, arrive := none, drained := none })).settle core slot

/-! ### Parks and wakes (R252–R254) -/

/-- Park a record. -/
def State.park (s : State) (core slot i reason : Nat) (obj : Word64) (lines : List Word64) : State :=
  s.onPrec core slot i (fun q => { q with state := .parked, reason := reason, obj := obj, waitPtrs := lines, woken := false })

/-- A waking event reaches a parked record: PARK_WAKE is due. -/
def State.wake (s : State) (core slot i : Nat) : State :=
  match s.group core slot with
  | none => s
  | some g =>
    let q := g.prec i
    if q.state = .parked ∧ !q.woken then
      (s.onPrec core slot i (fun q => { q with woken := true })).push (.parkWake core slot i)
    else s

/-- Wake a record with the result it awaited. -/
def State.wakeWith (s : State) (core slot i : Nat) (v : Word64) : State :=
  (s.onPrec core slot i (fun q => { q with answer := some v })).wake core slot i

/-- Wake every record of a core that a test picks, in ascending slot and record. -/
def State.wakeWhere (s : State) (core : Nat) (f : Nat → Group → PathRec → Bool) : State :=
  (s.core core).groups.foldl (fun s g =>
    g.2.recs.foldl (fun s q => if q.2.state = .parked ∧ f g.1 g.2 q.2 then s.wake core g.1 q.1 else s) s) s

/-- Records parked with a reason on a core wake. -/
def State.wakeReason (s : State) (core reason : Nat) : State :=
  s.wakeWhere core (fun _ _ q => q.reason == reason)

/-- A register becomes FULL: records parked on it wake (R31, R253). -/
def State.setFull (s : State) (core slot c : Nat) : State :=
  (s.onGroup core slot (fun g => g.setFe c .full)).wakeWhere core
    (fun sl _ q => sl == slot && q.reason == 1 && q.obj == BitVec.ofNat 64 c)

/-! ### The barn (R245–R247) -/

/-- Thread records the barn holds at most. -/
def barnMax : Nat := 4096
/-- Ways of a set that may be pinned (R16). -/
def pinMax : Nat := 15
/-- Thread records in the barn. -/
def Core.barnCount (k : Core) : Nat := (k.bundles.map (fun b => laneCount b.2.left)).foldl (· + ·) 0

/-- Ways pinned in all. -/
def Core.pinTotal (k : Core) : Nat := ((k.pins ++ k.barnPins).map (fun e => wayCount e.2)).foldl (· + ·) 0

/-- Room for records and lines (R245, R247). -/
def Core.barnRoom (k : Core) (records lines : Nat) : Bool :=
  k.barnCount + records ≤ barnMax && k.pinTotal + lines ≤ l1Sets * pinMax

/-- Mark a way of a set as pinned, or as no longer so. -/
def pinPut (t : Table (BitVec 16)) (p : Nat × Nat) (on : Bool) : Table (BitVec 16) :=
  let bit : BitVec 16 := BitVec.ofNat 16 (2 ^ p.2)
  tabSet 0 t p.1 (if on then tabGet 0 t p.1 ||| bit else tabGet 0 t p.1 &&& ~~~bit)

/-- Pin one way of a set: a cached line leaves when the set is full (R262). -/
def State.pinWay (s : State) (core set : Nat) (barn : Bool) : (Nat × Nat) × State :=
  let (way, s) := s.takeWay core set
  ((set, way), s.onCore core (fun k =>
    if barn then { k with barnPins := pinPut k.barnPins (set, way) true } else { k with pins := pinPut k.pins (set, way) true }))

/-- Pin n barn lines, each in the lowest set with room; the ways taken. -/
def State.pinBarn (s : State) (core : Nat) : Nat → List (Nat × Nat) × State
  | 0 => ([], s)
  | n + 1 =>
    let k := s.core core
    let set := ((List.range l1Sets).find? (fun i => k.pinned i < pinMax)).getD 0
    let (way, s) := s.pinWay core set true
    let (rest, s) := s.pinBarn core n
    (way :: rest, s)

/-- Free barn lines. -/
def Core.unpinBarn (k : Core) (ways : List (Nat × Nat)) : Core :=
  { k with barnPins := ways.foldl (fun t p => pinPut t p false) k.barnPins }

/-! ### Bins (R248, R249) -/

/-- Records of a full bin. -/
def binMax : Nat := 32
/-- Bins of a core. -/
def binCount : Nat := 64

/-- A bin closes: one entry goes to the tail of the launch list and the bin is free. -/
def Core.closeBin (k : Core) (b : Nat) : Core :=
  match tabFind k.bins b with
  | none => k
  | some x => { k with bins := tabDel k.bins b, launchList := k.launchList ++ [⟨x.key, x.refs⟩] }

/-- With no bin free, the bins whose timers have expired close before one is flushed (R259). -/
def Core.closeExpired (k : Core) (now : Nat) : Core :=
  if (tabFree k.bins binCount).isSome then k
  else (k.bins.filter (fun b => b.2.due ≤ now)).foldl (fun k b => k.closeBin b.1) k

/-- File one record (R249): in the filling bin of its key, in the lowest free bin, or in the bin flushed. -/
def Core.fileOne (k : Core) (key : BinKey) (timer now : Nat) (r : ThreadRef) : Core :=
  match k.bins.find? (fun b => b.2.key = key) with
  | some (b, x) =>
    let k := { k with bins := tabPut k.bins b { x with refs := x.refs ++ [r], last := now } }
    if x.refs.length + 1 = binMax then k.closeBin b else k
  | none =>
    let fresh : Bin := ⟨key, [r], now + timer, now⟩
    let k := k.closeExpired now
    match tabFree k.bins binCount with
    | some b => { k with bins := tabPut k.bins b fresh }
    | none =>
      match k.bins with
      | [] => k
      | e :: es =>
        let b := (es.foldl (fun a y => if y.2.last < a.2.last then y else a) e).1
        let k := k.closeBin b
        { k with bins := tabPut k.bins b fresh }

/-- Events that a closed bin makes due. -/
def Core.launchEvents (k : Core) (core : Nat) : List Instr := if k.launchList.isEmpty then [] else [.binGroupLaunch core]

/-- Lines of a bundle (R246). -/
def bundleLines (nv ns : Nat) : Nat := 3 + nv + ceilDiv ns 16

/-- Put a bundle into the barn: its number. -/
def State.holdBundle (s : State) (core : Nat) (b : Bundle) : Nat × State :=
  let (ways, s) := s.pinBarn core (bundleLines b.cols.length b.sregs.length)
  let n := (s.core core).nextBundle
  (n, s.onCore core (fun k => { k with bundles := tabPut k.bundles n { b with pins := ways }, nextBundle := n + 1 }))

/-- File records, each under its key, in the order given. -/
def State.fileRefs (s : State) (core timer : Nat) (rs : List (ThreadRef × BinKey)) : State :=
  s.onCore core (fun k => rs.foldl (fun k r => k.fileOne r.2 timer (s.clockOf core) r.1) k)

/-- The bin timer of a launch. -/
def State.binTimer (s : State) (launch : Nat) : Nat := ((tabFind s.launches launch).map Launch.bintimer).getD 64

/-! ### Ranking and spilling (R140, R228, R243, R245, R255) -/

/-- `a` ranks above `b` (R140). -/
def Cand.above (a b : Cand) : Bool :=
  let ca := laneCount a.q.lanes
  let cb := laneCount b.q.lanes
  if ca ≠ cb then cb < ca
  else if a.kind ≠ b.kind then a.kind < b.kind
  else if a.kind = 2 then a.target < b.target
  else a.old.getD 0 < b.old.getD 0

/-- Insert by rank, highest first. -/
def insertCand (a : Cand) : List Cand → List Cand
  | [] => [a]
  | b :: bs => if a.above b then a :: b :: bs else b :: insertCand a bs

/-- Keep the two highest and spill the others; a path in trap stays before one that is not (R228). -/
def splitKept (cs : List Cand) : List Cand × List Cand :=
  let ranked := cs.foldl (fun l c => insertCand c l) []
  let order := ranked.filter (fun c => c.q.trap.isSome) ++ ranked.filter (fun c => c.q.trap.isNone)
  (order.take 2, order.drop 2)

/-- Registers of a spill that the live masks cover: v registers below the budget, and s registers (R246). -/
def liveV (vl : BitVec 24) (budget : Nat) : List Nat := (List.range budget).filter (fun r => vl.getLsbD (r / 8))
/-- Live s registers. -/
def liveS (sl : BitVec 8) : List Nat := (List.range 48).filter (fun r => sl.getLsbD (r / 6))

/-- Specifier codes of the live registers. -/
def liveCodes (vl : BitVec 24) (sl : BitVec 8) (budget : Nat) : List Nat :=
  liveV vl budget ++ (liveS sl).map (fun r => 0xC0 + r)

/-- Why a spill cannot be performed now. -/
inductive SpillWait where
  /-- A live register is EMPTY-LOCAL: the issuing record is held. -/
  | stall
  /-- A live register is EMPTY-REMOTE: park with the reason register. -/
  | register (c : Nat)
  /-- Park with the reason barn room. -/
  | room (records : Nat)
  deriving DecidableEq, Repr

/-- Live masks of the block that holds a path's next word (R68); none live where it is no header. -/
def State.liveMasks (s : State) (core x : Nat) (p : Place) : BitVec 24 × BitVec 8 × State :=
  match s.fetchWord core x p.block with
  | (.word w, s) => if isHeader w then (headerVlive w, headerSlive w, s) else (0, 0, s)
  | (_, s) => (0, 0, s)

/-- The bundle of a spilled path (R246). -/
def Group.spillBundle (g : Group) (q : PathRec) (vl : BitVec 24) (sl : BitVec 8) : Bundle :=
  let ls := lanesOf q.lanes
  { pres := q.lanes, left := q.lanes, kind := .spill, role := g.role, team := g.team,
    place := { q.place with stack := [] }, vlive := vl, slive := sl,
    gens := ls.map (fun l => (l, tabGet 0 g.gens l)),
    cols := (liveV vl g.budget).map (fun r => (r, ls.map (fun l => (l, g.vreg r l)))),
    sregs := (liveS sl).map (fun r => (r, g.sreg r)), pins := [] }

/-- The bin key of a spill (R248). -/
def Bundle.spillKey (b : Bundle) : BinKey := ⟨.spill, b.place, 0, b.role, b.team⟩

/-- Records of spilled paths in the order in which they are filed (R259): those of select bit 0 first, then by lane. -/
def spillOrder (items : List (Cand × Nat × Bundle)) : List (ThreadRef × BinKey) :=
  [0, 1, 2, 3].flatMap (fun h => (List.range 32).flatMap (fun l =>
    (items.filter (fun e => e.1.home == h && e.1.q.lanes.getLsbD l)).map (fun e => (⟨e.2.1, l⟩, e.2.2.spillKey))))

/-- Put spilled paths into the barn. -/
def State.holdSpills (s : State) (core : Nat) (g : Group) :
    List (Cand × BitVec 24 × BitVec 8) → List (Cand × Nat × Bundle) × State
  | [] => ([], s)
  | e :: es =>
    let b := g.spillBundle e.1.q e.2.1 e.2.2
    let (n, s) := s.holdBundle core b
    let (rest, s) := s.holdSpills core g es
    ((e.1, n, b) :: rest, s)

/-- Spill paths: every live register must be FULL and everything must fit at once (R245). -/
def State.spill (s : State) (core : Nat) (g : Group) (cs : List Cand) : Except SpillWait State :=
  let step (acc : List (Cand × BitVec 24 × BitVec 8) × State) (c : Cand) :=
    let (vl, sl, s) := acc.2.liveMasks core g.ctx c.q.place
    (acc.1 ++ [(c, vl, sl)], s)
  let (items, s) := cs.foldl step ([], s)
  let codes := items.flatMap (fun e => liveCodes e.2.1 e.2.2 g.budget)
  match codes.find? (fun c => g.feOf c = .emptyRemote) with
  | some c => .error (.register c)
  | none =>
    if codes.any (fun c => g.feOf c == .emptyLocal) then .error .stall
    else
      let records := (items.map (fun e => laneCount e.1.q.lanes)).foldl (· + ·) 0
      let lines := (items.map (fun e => bundleLines (liveV e.2.1 g.budget).length (liveS e.2.2).length)).foldl (· + ·) 0
      if !(s.core core).barnRoom records lines then .error (.room records)
      else
        let (held, s) := s.holdSpills core g items
        let s := s.fileRefs core (s.binTimer g.launch) (spillOrder held)
        .ok { s with agenda := s.agenda ++ (s.core core).launchEvents core }

/-- Record of a kept path: the one it holds; for a fall-through half that of the path it came from; for a taken half the one
that no other kept path holds. Where two taken halves are all that remains, so that both are free, the higher ranked takes
that of its path: DESIGN CHOICE (log 182). -/
def Cand.place (used : List Nat) (c : Cand) : Nat :=
  let pref := c.old.getD c.home
  if used.contains pref then 1 - pref else pref

/-- Put the kept paths into records 0 and 1 (R140): those that existed first, then fall-through halves, then taken halves. DESIGN
CHOICE (log 182): where two taken halves remain and no other path, the higher-ranked one takes the select bit of the path that split. -/
def placeKept (cs : List Cand) : Table PathRec :=
  let order := cs.filter (fun c => c.old.isSome) ++ cs.filter (fun c => c.old.isNone && c.kind == 1) ++
    cs.filter (fun c => c.old.isNone && c.kind != 1)
  (order.foldl (fun (acc : Table PathRec × List Nat) c => (tabPut acc.1 (c.place acc.2) c.q, c.place acc.2 :: acc.2)) ([], [])).1

/-- Rank the paths of a group, keep two and spill the rest. Records 2 and 3 stay as they are. -/
def State.arrange (s : State) (core slot : Nat) (cs : List Cand) : Except SpillWait State :=
  match s.group core slot with
  | none => .ok s
  | some g =>
    let (kept, out) := splitKept cs
    match (if out.isEmpty then .ok s else s.spill core g out) with
    | .error w => .error w
    | .ok s =>
      let recs := placeKept kept
      .ok ((s.onGroup core slot (fun g =>
        { g with
          recs := [0, 1].foldl (fun t i => tabSet PathRec.free t i (tabGet PathRec.free recs i)) g.recs })).settle core slot)

/-- Paths in records 0 and 1 other than some, as candidates. -/
def Group.pathsBut (g : Group) (is : List Nat) : List Cand :=
  ([0, 1].filter (fun j => !is.contains j && (g.prec j).state != .free)).map (fun j => ⟨g.prec j, 0, 0, some j, j⟩)

/-- A record waits for barn room in the order in which it first parked (R254). -/
def Core.joinBarnWait (k : Core) (slot i : Nat) : Core :=
  if k.barnWait.contains (slot, i) then k else { k with barnWait := k.barnWait ++ [(slot, i)] }

/-- The issuing record waits for what a spill lacks (R245); a stall leaves it to issue again. -/
def State.spillWait (s : State) (core slot i : Nat) : SpillWait → State
  | .stall => s
  | .register c => s.park core slot i 1 (BitVec.ofNat 64 c) []
  | .room n => (s.park core slot i 5 (BitVec.ofNat 64 n) []).onCore core (fun k => k.joinBarnWait slot i)

/-- Records or lines left the barn: the records waiting for room wake in the order in which they parked. -/
def State.barnFreed (s : State) (core : Nat) : State :=
  (s.core core).barnWait.reverse.foldl (fun s e => s.wake core e.1 e.2) s

/-! ### Lanes that leave a path (R228, R255, R256) -/

/-- Lanes park with reason 6 or 11: a detached sub-group in a free record 2 or 3, or the whole path when every lane is
concerned or both are in use. The sub-group stands at `at_`. -/
def State.parkLanes (s : State) (core slot i : Nat) (lanes : LaneMask) (at_ : Place) (reason : Nat) (obj : Word64)
    (lines : List Word64) (cls : Nat) : State :=
  match s.group core slot with
  | none => s
  | some g =>
    let q := g.prec i
    let all := q.lanes &&& ~~~lanes == 0
    match [2, 3].find? (fun j => (g.prec j).state = .free) with
    | some j =>
      if all then
        s.onPrec core slot i (fun q =>
          { q with state := .parked, place := at_, reason := reason, obj := obj, waitPtrs := lines, cls := cls, woken := false })
      else
        (s.onGroup core slot (fun g =>
          (g.setPrec i { q with lanes := q.lanes &&& ~~~lanes }).setPrec j
            { q with state := .parked, lanes := lanes, place := at_, reason := reason, obj := obj, waitPtrs := lines, cls := cls, woken := false }))
    | none =>
      s.onPrec core slot i (fun q =>
        { q with
          state := .parked
          place := if all then at_ else q.place
          reason := reason
          obj := obj
          waitPtrs := lines
          cls := cls
          woken := false })

/-- TRAPB of a launch; 0 for none. -/
def State.trapBlock (s : State) (launch : Nat) : Word64 := ((tabFind s.launches launch).map Launch.trapb).getD 0

/-- Cycles from a trapping fault to the trap block's first word, and from TRET to the word resumed (R234). -/
def trapTime : Nat := 10

/-- The path in trap (R228): at the trap block's header, no frames, depth 0, empty stack, and the trap-return record; its
first word issues from a cycle on (R234). -/
def PathRec.inTrap (q : PathRec) (lanes : LaneMask) (trapb : Word64) (ret : Place) (due : Nat) : PathRec :=
  { q with
    state := .running
    lanes := lanes
    place := ⟨trapb, trapb, 0, [], 0, [], false⟩
    trap := some ret
    reason := 0
    obj := 0
    answer := none
    arrive := none
    drained := none
    waitPtrs := []
    woken := false
    ready := max due q.ready }

/-- Some path of the group has yet to issue its word of this cycle. -/
def State.groupIssues (s : State) (core slot : Nat) : Bool := s.issuing.any (fun r => r.core == core && r.slot == slot)

/-- A path at the trap block takes a free record of the two, or is ranked with their paths; otherwise the spill cannot be
performed yet (R228). The ranking waits for the word that the group's other path issues in the same cycle, and for a split
that has not been ranked (R155). -/
def State.placeTrap (s : State) (core slot : Nat) (t : PathRec) : Except SpillWait State :=
  match s.group core slot with
  | none => .ok s
  | some g =>
    match [0, 1].find? (fun j => (g.prec j).state = .free) with
    | some j => .ok ((s.onPrec core slot j (fun _ => t)).settle core slot)
    | none =>
      if s.groupIssues core slot || !g.splits.isEmpty then .error .stall
      else s.arrange core slot (g.pathsBut [] ++ [⟨t, 2, t.place.word.toNat, none, 0⟩])

/-- Paths at the trap block for which there is room now leave their wait, the oldest first. -/
def State.trapProgress (s : State) (core slot : Nat) : State :=
  match s.group core slot with
  | none => s
  | some g =>
    match g.trapWaits with
    | [] => s
    | t :: ts =>
      match (s.onGroup core slot (fun g => { g with trapWaits := ts })).placeTrap core slot t with
      | .ok s => s
      | .error _ => s

/-- Deliver a trapping fault to lanes of a record (R228). Without a trap block, or in trap, the lanes park for the host
handler. Where a spill cannot be performed yet, the lanes wait until it is, in no record. -/
def State.deliverTrap (s : State) (core slot i : Nat) (lanes : LaneMask) (ret : Place) (cls : Nat) (obj : Word64) : State :=
  match s.group core slot with
  | none => s
  | some g =>
    let q := g.prec i
    let trapb := s.trapBlock g.launch
    let due := s.clockOf core + trapTime
    if trapb = 0 ∨ q.trap.isSome then s.parkLanes core slot i lanes ret 6 obj [] cls
    else
      let all := q.lanes &&& ~~~lanes == 0
      if all ∧ i < 2 then (s.onPrec core slot i (fun q => q.inTrap q.lanes trapb ret due)).settle core slot
      else
        let t := q.inTrap lanes trapb ret due
        let left : PathRec := if all then PathRec.free else { q with lanes := q.lanes &&& ~~~lanes }
        let s' := s.onPrec core slot i (fun _ => left)
        match s'.placeTrap core slot t with
        | .ok s'' => s''
        | .error _ => s'.onGroup core slot (fun g => { g with trapWaits := g.trapWaits ++ [t] })

/-! ### Faults of an issuing instruction (R11, R426) -/

/-- Raise a trapping fault of some lanes of a record at a place (fate T). -/
def State.trapFault (s : State) (core slot i : Nat) (lanes : LaneMask) (at_ : Place) (cls : Nat) (addr : Word64)
    (opnd cause detail : Nat) (lane : Nat) : State :=
  let (s, a) := s.recordFault core slot
    ⟨cls, lane, opnd, cause, false, i, slot, core, addr, at_.word, lanes, detail⟩
  s.deliverTrap core slot i lanes at_ cls a

/-- Lanes refused at the memory port (R355, R427); where there is no fault but a wait, the word issues again. -/
def State.portFault (s : State) (core slot i : Nat) (lanes : LaneMask) (at_ : Place) (addr : Word64) : PortFault → State
  | .walk m lines =>
    let (s, _) := s.recordFault core slot
      ⟨6, lowestLane lanes, 0, if m then 1 else 0, false, i, slot, core, addr, at_.word, lanes, 0⟩
    s.parkLanes core slot i lanes at_ 11 addr (lines.map (fun l => BitVec.ofNat 64 l)) 6
  | .cls c cause =>
    let (s, a) := s.recordFault core slot ⟨c, lowestLane lanes, 0, cause, false, i, slot, core, addr, at_.word, lanes, 0⟩
    if c = 5 then s.parkLanes core slot i lanes at_ 6 a [] 5
    else s.deliverTrap core slot i lanes at_ c a
  | .wait => s

end Sys2Proof.Machine
end

