-- ==== Sys2Proof/Machine/Ops.lean ====
section
/-! DEFINITION. Sys2Proof/Machine/Ops.lean: how a word issues (R32, R71, R72), what it raises (R11, R426), how lanes
and groups end (R151), and the shared form of the instructions that write a result. Taking a trapping fault is
`State.trapFault` (Path.lean); the return from it is `State.trapReturn` here (R229). -/

namespace Sys2Proof.Machine

/-! ### The issuing word -/

/-- What a word sees when it issues. -/
structure Iss where
  /-- Core. -/
  core : Nat
  /-- Group slot. -/
  slot : Nat
  /-- Path record. -/
  prec : Nat
  /-- The group. -/
  g : Group
  /-- The path. -/
  q : PathRec
  /-- Active (R9). -/
  act : LaneMask
  deriving DecidableEq, Repr

/-- The word's address. -/
def Iss.pc (e : Iss) : Word64 := e.q.place.word

/-- The environment of a record about to issue under a guard; none when it is not running there. -/
def State.issuer (s : State) (guard : BitVec 4) : Option Iss :=
  match s.cur with
  | none => none
  | some r =>
    match s.group r.core r.slot with
    | none => none
    | some g =>
      let q := g.prec r.prec
      if q.state = .running then some ⟨r.core, r.slot, r.prec, g, q, q.lanes &&& g.guardMask guard⟩ else none

/-- The result of an operation of no issuing record. -/
def noIssuer : Host.Outcome State Fault Refusal := .fault .noIssuer

/-! ### Full/empty waits (R31, R32) -/

/-- Specifier codes with full/empty state that an operand covers. -/
def operandRegs (c : BitVec 8) (n : Nat) : List Nat :=
  if isV c then (List.range n).map (fun k => c.toNat + k) else if isS c then [c.toNat] else []

/-- Registers of a source. -/
def Src.regs (x : Src) : List Nat := operandRegs x.code x.n
/-- Registers of a destination. -/
def Dst.regs (x : Dst) : List Nat := operandRegs x.code x.n

/-- Whether a word may issue. -/
inductive Wait where
  /-- Every register it waits on is FULL. -/
  | go
  /-- A source selected for trap is empty: its field. -/
  | trap (fld : Nat)
  /-- A register is EMPTY-LOCAL: the group stalls. -/
  | stall
  /-- A register is EMPTY-REMOTE: the record parks on it. -/
  | park (c : Nat)
  deriving DecidableEq, Repr

/-- The check of R32: a trap before any wait; of the registers waited on, the first that is not FULL decides. -/
def Group.waits (g : Group) (x : Shape) : Wait :=
  match x.srcs.find? (fun r => r.trap && r.regs.any (fun c => g.feOf c != .full)) with
  | some r => .trap r.fld
  | none =>
    match (x.srcs.flatMap Src.regs ++ x.dsts.flatMap Dst.regs).find? (fun c => g.feOf c != .full) with
    | none => .go
    | some c => if g.feOf c = .emptyLocal then .stall else .park c

/-- Every vector register a word names lies within the budget (R26). -/
def Shape.inBudget (x : Shape) (budget : Nat) : Bool :=
  x.srcs.all (fun r => !isV r.code || r.code.toNat + r.n ≤ budget) &&
    x.dsts.all (fun d => !isV d.code || d.code.toNat + d.n ≤ budget)

/-! ### Faults of the issuing word -/

/-- A whole-instruction fault: every lane of the path (R11). -/
def State.wholeFault (s : State) (e : Iss) (cls : Nat) (addr : Word64) (lane : Nat) : State :=
  s.trapFault e.core e.slot e.prec e.q.lanes e.q.place cls addr 0 0 0 lane

/-- An illegal-instruction fault (R72): the address is the word's own. -/
def State.illegal (s : State) (e : Iss) : State := s.wholeFault e 1 e.pc (lowestLane e.q.lanes)

/-- A fault in some lanes of the issuing word. -/
def State.lanesFault (s : State) (e : Iss) (lanes : LaneMask) (cls : Nat) (addr : Word64) (opnd detail : Nat) : State :=
  s.trapFault e.core e.slot e.prec lanes e.q.place cls addr opnd 0 detail (lowestLane lanes)

/-- The faults that some lanes meet at issue: one record a class, classes in the order of the lowest lane, ADDR that
of the lowest lane of the class (R423). -/
def laneClasses (fs : List (Nat × Nat × Word64)) : List Nat := (fs.map (fun f => f.2.1)).eraseDups

/-- Raise them. -/
def State.raiseLanes (s : State) (e : Iss) (fs : List (Nat × Nat × Word64)) : State :=
  (laneClasses fs).foldl (fun s c =>
    let mine := fs.filter (fun f => f.2.1 = c)
    s.lanesFault e (maskOf (mine.map Prod.fst)) c ((mine.map (fun f => f.2.2)).headD 0) 0 0) s

/-! ### Issue -/

/-- The word has issued: nothing is issuing. -/
def State.issued (s : State) : State := { s with cur := none }

/-- The record goes on after the word. -/
def State.after (s : State) (e : Iss) : State := s.advance e.core e.slot e.prec

/-- Park the issuing record. -/
def State.parkIss (s : State) (e : Iss) (reason : Nat) (obj : Word64) : State := s.park e.core e.slot e.prec reason obj []

/-- An operation that no access order holds back: engine operations and ATT (R192, R282). -/
def engineWord : Instr → Bool
  | .mma _ | .mmasp _ | .mmv _ | .mldt _ | .mzero _ | .mepi _ | .tcpy _ | .tcpo _ | .gcpy _ | .scpy _ | .wcpy _ | .drain _
  | .cstep _ | .npost _ | .att _ => true
  | _ => false

/-- A load or atomic that acquires. -/
def acquireWord : Instr → Bool
  | .ldc f | .lds f | .ldm f | .ldw f | .atc f | .ats f | .att f => 2 ≤ f.order.toNat
  | _ => false

/-- An acquire of the group has not returned its value. -/
def Core.acquirePending (k : Core) (slot : Nat) : Bool :=
  k.accs.any (fun a => a.2.slot == slot && !a.2.performed && acquireWord a.2.instr)

/-- A word that accesses memory in any space, or orders the group's accesses. -/
def accessWord : Instr → Bool
  | .ldc _ | .stc _ | .lds _ | .sts _ | .ldm _ | .stm _ | .ldw _ | .stw _ | .cctl _ | .atc _ | .ats _ | .slinit _ | .waita _ | .fence _
  | .binit _ | .bexp _ | .barv _ | .bwait _ | .btest _ | .tbar _ | .gbar _ | .qinit _ | .qpush _ | .qpop _ | .qallow _ | .launch _ => true
  | i => engineWord i

/-- A control-space store, a strong access or a fence: what a TFENCE orders the group's tensor-space writes before (R171). -/
def strongWord : Instr → Bool
  | .stc _ | .stw _ | .atc _ | .slinit _ | .waita _ | .fence _ => true
  | .ldc f | .ldw f | .lds f | .sts f | .ldm f | .stm f | .ats f | .att f => 1 ≤ f.order.toNat
  | _ => false

/-- A word of one path comes after a FENCESC or TFENCE of the other that has not completed: it is later in program order, and
its accesses come after the tick, or after the acknowledgements (R170, R171, R282, R293, R295). -/
def Group.fenceHolds (g : Group) (i : Instr) : Bool :=
  g.recs.any (fun q => q.2.state == .parked && ((q.2.reason == 7 && accessWord i) || (q.2.reason == 8 && strongWord i)))

/-- The word comes after an acquire that has not returned its value, or after a fence of the group's other path that has not
completed: until then it issues again (R282). -/
def State.afterAcquire (s : State) (e : Iss) (i : Instr) : Bool :=
  (engineWord i && (s.core e.core).acquirePending e.slot) || e.g.fenceHolds i

/-- The word that the end check after a word goes back to is a header, as far as it can be fetched (R66, R146). -/
def State.backOk (s : State) (e : Iss) : Bool :=
  match e.q.place.loopStart with
  | none => true
  | some start =>
    match (s.fetchWord e.core e.g.ctx start).1 with
    | .word w => isHeader w
    | _ => true

/-- What a word leaves: where its end check goes back to a word that is no header, the word takes the illegal-instruction
fault instead, with x.faultaddr set to that word's address (R66). -/
def State.loopBack (s : State) (e : Iss) (done : State) : State :=
  if s.backOk e then done
  else
    match done.group e.core e.slot with
    | some g => if (g.prec e.prec).place = e.q.place.after then s.wholeFault e 1 (e.q.place.loopStart.getD 0) (lowestLane e.q.lanes) else done
    | none => done

/-- Issue a word (R32, R71, R72): illegal cases that rest on the word and the launch's declarations first (`fixed`),
then, unless Active is empty, those that rest on other state (`pre`), traps on empty registers, waits, and the word's
own effect. -/
def State.issue (s : State) (i : Instr) (guard : BitVec 4) (fixed pre : Iss → State → Bool) (body : Iss → State → State) :
    Host.Outcome State Fault Refusal :=
  match s.issuer guard, shapeOf i with
  | some e, some x =>
    let s := s.issued
    .next (
      if !(x.legal && x.inBudget e.g.budget && fixed e s) then s.illegal e
      else if e.act = 0 then s.loopBack e (s.after e)
      else if !pre e s then s.illegal e
      else
        match e.g.waits x with
        | .trap fld => s.lanesFault e e.act 9 e.pc fld 0
        | .stall => s
        | .park c => s.parkIss e 1 (BitVec.ofNat 64 c)
        | .go => if s.afterAcquire e i then s else s.loopBack e (body e s))
  | _, _ => noIssuer

/-- No further check. -/
def always (_ : Iss) (_ : State) : Bool := true

/-- Write a result and go on. -/
def State.result (s : State) (e : Iss) (f : Group → Group) : State := (s.onGroup e.core e.slot f).after e

/-- An instruction that writes D from its sources, lane by lane. -/
def State.compute (s : State) (i : Instr) (guard : BitVec 4) (d : BitVec 8) (n : Nat) (sx : Bool)
    (f : Iss → Nat → Word64) : Host.Outcome State Fault Refusal :=
  s.issue i guard always always (fun e s => s.result e (fun g => g.write d n sx e.act (f e)))

/-! ### Lanes, paths and groups that end (R151, R228, R229) -/


/-- The group has ended: its slot is released when nothing addressed to it is outstanding. -/
def State.checkEnd (s : State) (core slot : Nat) : State :=
  match s.group core slot with
  | none => s
  | some g =>
    if g.lanes ≠ 0 then s
    else
      let s := s.onGroup core slot (fun g => { g with ended := true, recs := [] })
      s.push (.groupEnd core slot)

/-- End some threads of a record. -/
def State.exitLanes (s : State) (core slot i : Nat) (lanes : LaneMask) : State :=
  let s := s.onPrec core slot i (fun q =>
    if q.lanes &&& ~~~lanes = 0 then PathRec.free else { q with lanes := q.lanes &&& ~~~lanes })
  (s.settle core slot).checkEnd core slot

/-- Restore a trap-return record and leave trap (R229); with `next`, resume at the word after. The word resumed issues ten
cycles later (R234). -/
def State.trapReturn (s : State) (core slot i : Nat) (ret : Place) (next : Bool) : State :=
  (s.onPrec core slot i (fun q => { q with
    trap := none
    place := if next then ret.after else ret
    ready := max (s.clockOf core + trapTime) q.ready })).settle core slot

/-! ### Fetching the word to issue (R63–R67) -/

/-- Fetch and decode the next word of a record, its block header first where it stands at one. Where that fails the
fault is taken: the state after it. -/
def State.fetchNext (s : State) (r : IssueRef) : Except State (Instr × State) :=
  match s.group r.core r.slot with
  | none => .error s
  | some g =>
    let q := g.prec r.prec
    if q.state ≠ .running then .error s
    else
      let fail (s : State) (p : Place) (cls : Nat) : State :=
        s.trapFault r.core r.slot r.prec q.lanes p cls p.word 0 0 0 (lowestLane q.lanes)
      let word (s : State) (p : Place) : Except State (Instr × State) :=
        match s.fetchWord r.core g.ctx p.word with
        | (.cls c, s) => .error (fail s p c)
        | (.port f, s) => .error (s.portFault r.core r.slot r.prec q.lanes p p.word f)
        | (.word w, s) =>
          if p.arrived then .error (fail s p 1)
          else
            match decode w with
            | .error _ => .error (fail s p 1)
            | .ok i => .ok (i, s.onPrec r.core r.slot r.prec (fun q => { q with place := p }))
      if q.place.word = q.place.block then
        match s.fetchWord r.core g.ctx q.place.block with
        | (.cls c, s) => .error (fail s q.place c)
        | (.port f, s) => .error (s.portFault r.core r.slot r.prec q.lanes q.place q.place.word f)
        | (.word h, s) =>
          if isHeader h ∧ headerLen h ≠ 0 then word s { q.place with word := nextWord q.place.word, len := headerLen h }
          else .error (fail s q.place 1)
      else word s q.place

end Sys2Proof.Machine
end

