-- ==== Sys2Proof/Machine/Access.lean ====
section
/-! DEFINITION. Sys2Proof/Machine/Access.lean: the accesses of the memory instructions: what they check at issue, where
they are performed, and what performing them does (R40–R43, R157–R167, R173–R177, R192, R286–R294). -/

namespace Sys2Proof.Machine

/-! ### What an instruction accesses -/

/-- An access as its instruction word gives it. -/
structure MemOp where
  /-- Space. -/
  sp : Space
  /-- Read, write or atomic. -/
  kind : Kind
  /-- Bytes. -/
  bytes : Nat
  /-- ORDER -/
  order : Nat
  /-- SCOPE -/
  scope : Nat
  /-- Performed at L2 whatever its order: LDW and STW. -/
  atL2 : Bool
  /-- SIZE of a load, or the operation of an atomic. -/
  code : Nat
  /-- SLINIT, and whether .clr. -/
  init : Option Bool
  /-- D -/
  d : BitVec 8
  deriving DecidableEq, Repr

/-- A load or store; a store has no D (R159). -/
def plainOp (sp : Space) (kind : Kind) (l2 : Bool) (f : FmtM) : MemOp :=
  ⟨sp, kind, sizeBytes f.size, f.order.toNat, f.scope.toNat, l2, f.size.toNat, none, if kind = .write then 0xF8 else f.d⟩

/-- An atomic. -/
def atomOp (sp : Space) (f : FmtM) : MemOp :=
  ⟨sp, .atomic, atomBytes f, f.order.toNat, f.scope.toNat, false, f.size.toNat, none, f.d⟩

/-- The access of a memory instruction. -/
def memOpOf : Instr → Option MemOp
  | .ldc f => some (plainOp .control .read false f)
  | .stc f => some (plainOp .control .write false f)
  | .lds f => some (plainOp .scratch .read false f)
  | .sts f => some (plainOp .scratch .write false f)
  | .ldm f => some (plainOp .onchip .read false f)
  | .stm f => some (plainOp .onchip .write false f)
  | .ldw f => some (plainOp .control .read true f)
  | .stw f => some (plainOp .control .write true f)
  | .atc f => some (atomOp .control f)
  | .ats f => some (atomOp .scratch f)
  | .att f => some (atomOp .tensor f)
  | .slinit f => some ⟨.control, .write, 128, 1, 3, true, 0, some (f.mod == 1), 0xF8⟩
  | _ => none

/-- An acquire or release wide enough to move lines (R286). -/
def MemOp.wide (o : MemOp) : Bool := 2 ≤ o.order && 1 ≤ o.scope

/-- Registers of D that the access fills. -/
def MemOp.dstRegs (o : MemOp) : List Nat :=
  if o.kind = .write then []
  else operandRegs o.d (if o.bytes = 16 then 4 else if o.bytes = 8 then 2 else 1)

/-! ### Values -/

/-- A loaded value as D receives it (R75, R158). -/
def extendLoad (o : MemOp) (bs : List Byte) : BitVec 128 :=
  let n := leNat bs
  if o.kind = .read ∧ (o.code = 1 ∨ o.code = 3) then BitVec.ofNat 128 (lowBits 64 (signedOf (8 * o.bytes) n)) else BitVec.ofNat 128 n

/-- New value of an atomic (R165): `x` holds the operand, for .cas cmp below val. -/
def atomicNew (code w old : Nat) (x : BitVec 128) : Nat :=
  let b := fieldOf x 0 w
  match code with
  | 0 => b
  | 1 => if old = b then fieldOf x w w else old
  | 2 => (old + b) % 2 ^ w
  | 3 => if signedOf w old ≤ signedOf w b then old else b
  | 4 => if signedOf w b ≤ signedOf w old then old else b
  | 5 => min old b
  | 6 => max old b
  | 7 => old &&& b
  | 8 => old ||| b
  | 9 => old ^^^ b
  | 10 => f32Fmt.round .rne false (FVal.add false (f32Fmt.decode old) (f32Fmt.decode b))
  | 11 => packElems 16 ((List.range 2).map (fun i =>
      bf16Fmt.round .rne false (FVal.add false (bf16Fmt.decode (fieldOf (BitVec.ofNat 64 old) (16 * i) 16)) (bf16Fmt.decode (fieldOf x (16 * i) 16)))))
  | _ => if b ≤ old then 0 else (old + 1) % 2 ^ w

/-! ### Scratchpad and the on-chip windows (R39, R176, R177, R260, R266) -/

/-- Core address of a team's scratchpad offset. -/
def Core.scratchAddr (k : Core) (team off : Nat) : Nat := ((tabFind k.teams team).map (fun t => t.base * 128)).getD 0 + off

/-- Bytes of a core's scratchpad. -/
def Core.scratchRead (k : Core) (a n : Nat) : List Byte := tabGetList 0 k.scratch a n

/-- Write bytes of a core's scratchpad. -/
def Core.scratchWrite (k : Core) (a : Nat) (bs : List Byte) : Core := { k with scratch := tabSetList 0 k.scratch a bs }

/-- Some byte of a range belongs to a barrier object. -/
def Core.barrierIn (k : Core) (a n : Nat) : Bool :=
  n ≠ 0 && (List.range ((a + n - 1) / 16 - a / 16 + 1)).any (fun i => tabGet false k.marks (a / 16 + i))

/-- Who holds what an offset of a window names: one more than the cycle of admission of the group, or of the team whose lines
hold it; 0 for none, and for a tile. -/
def Core.windowOwner (k : Core) (window off : Nat) : Nat :=
  match window with
  | 0 => ((tabFind k.groups (off >>> 15)).map (fun g => g.age + 1)).getD 0
  | 1 => ((k.teams.find? (fun t => t.2.base * 128 ≤ off ∧ off < t.2.base * 128 + t.2.bytes)).map (fun t => t.2.admitted + 1)).getD 0
  | _ => 0

/-- Read a window; a target that has been released reads zero. -/
def Core.winRead (k : Core) (window off n : Nat) : List Byte :=
  if !k.windowValid window off n then List.replicate n 0
  else
    match window with
    | 0 =>
      let reg := (off >>> 7) % 256
      match tabFind k.groups (off >>> 15) with
      | none => List.replicate n 0
      | some g =>
        if reg < 192 then (List.range (n / 4)).flatMap (fun i => leBytes 4 (g.vreg reg (off % 128 / 4 + i)).toNat)
        else ((leBytes 8 (g.sreg (reg - 192)).toNat).drop (off % 128)).take n
    | 1 => k.scratchRead off n
    | _ => (List.range (n / 4)).flatMap (fun i => leBytes 4 (tabGet 0 k.tiles (off / 4 + i)).toNat)

/-- Write 4-byte elements of a register from a byte offset within it. -/
def Group.winReg (g : Group) (reg byte : Nat) (bs : List Byte) : Group :=
  if reg < 192 then
    (List.range (bs.length / 4)).foldl (fun g i =>
      g.setVreg reg (byte / 4 + i) (BitVec.ofNat 32 (leNat ((bs.drop (4 * i)).take 4)))) g
  else
    let old := leBytes 8 (g.sreg (reg - 192)).toNat
    g.setSreg (reg - 192) (BitVec.ofNat 64 (leNat (old.take byte ++ bs ++ old.drop (byte + bs.length))))

/-- Write a window; a target that has been released discards the write. -/
def Core.winWrite (k : Core) (window off : Nat) (bs : List Byte) : Core :=
  if !k.windowValid window off bs.length then k
  else
    match window with
    | 0 => { k with groups := tabMod k.groups (off >>> 15) (fun g => g.winReg ((off >>> 7) % 256) (off % 128) bs) }
    | 1 => k.scratchWrite off bs
    | _ => { k with tiles := (List.range (bs.length / 4)).foldl (fun t i =>
        tabSet 0 t (off / 4 + i) (BitVec.ofNat 32 (leNat ((bs.drop (4 * i)).take 4)))) k.tiles }

/-- Where a logical core of a context is: a core of the module, or the part of it that is away. -/
def State.coreOf (s : State) (x l : Nat) : Nat := if (s.ctx x).away then 512 * (x + 1) + l else physCore (s.ctx x).cmap l

/-- The core that an on-chip map pointer names. -/
def State.targetCore (s : State) (x : Nat) (p : Word64) : Nat := s.coreOf x (ptrCore p)

/-! ### Control space -/

/-- Whether a pointer's line is a sync line, as the home marks it. -/
def State.syncOf (s : State) (core x : Nat) (p : Word64) (ds : Descs := []) : Bool × State :=
  match s.l1Find core x p with
  | some y => (s.isSync y.pline, s)
  | none =>
    match s.sysPort core x p ds with
    | .ok (t, s) => (s.isSync (s.homeRef t.ref).line, s)
    | .error _ => (false, s)

/-- The line is held by a core of this module. -/
def State.heldHere (s : State) (core l : Nat) : Bool := (s.core core).held.contains l

/-- Records of the core that await a line written in its L1 (R172). -/
def State.wakeL1 (s : State) (core l : Nat) : State :=
  s.wakeWhere core (fun _ _ q => q.reason == 4 && q.waitPtrs.contains (BitVec.ofNat 64 l))

/-- Insert a written line into the core's sheaf (R162, R288). -/
def State.controlWrite (s : State) (core x slot : Nat) (p : Word64) : State :=
  s.onCore core (fun k => k.controlWrite x slot (ptrLineNo p))

/-- Bytes of an access placed in their line, and their mask. -/
def accessLine (p : Word64) (bs : List Byte) : Line × ByteMask := (placeBytes (ptrOff p % 128) bs, byteMask (ptrOff p % 128) bs.length)

/-- VALUE of a sync line with some of its bytes replaced. -/
def mergeValue (d : Line) (p : Word64) (bs : List Byte) : Nat :=
  lineField (mergeLine d (accessLine p bs).1 (accessLine p bs).2) 0 64

/-- A release at SCOPE 1–3 to VALUE of a sync line: the store replaces SHEAF, an atomic ORs into it (R175, R288). The bytes written
are given by the line before; the line before is returned. A mark that the core itself holds is promoted first (R291). -/
def State.releaseLine (s : State) (core x slot : Nat) (p : Word64) (t : Xlat) (bytes : Line → List Byte) (replace : Bool) :
    Except PortFault (Line × State) :=
  let l := (s.homeRef t.ref).line
  let s := if s.heldHere core l || s.heldElsewhere core l then s.promoteLine l else s
  let f := (s.core core).pending x
  match s.l2UpdateAt core x p t (fun d =>
      (syncLine (mergeValue d p (bytes d)) (lineEpoch d + 1) (if replace then f else lineSheaf d ||| f), BitVec.allOnes 128)) with
  | .error e => .error e
  | .ok (d, s) => .ok (d, s.onCore core (fun k => k.releaseSheaf x slot))

/-- A release at SCOPE 0 to VALUE of a sync line (R290): the line before. -/
def State.teamRelease (s : State) (core x slot : Nat) (p : Word64) (t : Xlat) (bytes : Line → List Byte) : Except PortFault (Line × State) :=
  let l := (s.homeRef t.ref).line
  let s := s.controlWrite core x slot p
  let s := if s.heldElsewhere core l then s.promoteLine l else s
  let s := if !s.heldHere core l && heldMax ≤ (s.core core).held.length then s.promoteLine ((s.core core).held.headD 0) else s
  match s.l2UpdateAt core x p t (fun d => (syncLine (mergeValue d p (bytes d)) (lineEpoch d + 1) (lineSheaf d), BitVec.allOnes 128)) with
  | .error e => .error e
  | .ok (d, s) =>
    if s.heldHere core l then .ok (d, s)
    else
      let s := s.setDir l { s.dirOf l with held := some ⟨s.moduleId.toNat, core, x, slot⟩ }
      .ok (d, s.onCore core (fun k => { k with held := k.held ++ [l] }))

/-- A control-space load (R157, R161, R175). -/
def State.controlLoad (s : State) (core x slot : Nat) (o : MemOp) (p : Word64) (ds : Descs := []) : Except PortFault (BitVec 128 × State) :=
  let (sync, s) := s.syncOf core x p ds
  let value := sync && ptrOff p % 128 + o.bytes ≤ 8
  if o.atL2 ∨ (1 ≤ o.order ∧ (1 ≤ o.scope ∨ value)) then
    match s.l2Read core x p (byteMask (ptrOff p % 128) o.bytes) o.wide o.wide .read ds with
    | .error f => .error f
    | .ok (d, _, s) =>
      let s := if o.wide then s.acquireLine core x slot value d else s
      .ok (extendLoad o (lineBytes d (ptrOff p % 128) o.bytes), s)
  else
    match s.l1Read core x p o.bytes ds with
    | .error f => .error f
    | .ok (bs, s) => .ok (extendLoad o bs, s)

/-- A control-space store (R157, R161, R162, R173, R175, R286, R290). -/
def State.controlStore (s : State) (core x slot : Nat) (o : MemOp) (p : Word64) (bs : List Byte) (ds : Descs := []) : Except PortFault State :=
  let (sync, s) := s.syncOf core x p ds
  if sync ∧ 8 < ptrOff p % 128 + bs.length then .error (.cls 4 0)
  else if o.atL2 ∨ (sync ∧ 1 ≤ o.order) ∨ o.wide then
    match s.port core x p .write ds with
    | .error f => .error f
    | .ok (t, s) =>
      let s := if o.wide then s.releaseCore core x else s
      if sync ∧ 2 ≤ o.order then
        (if o.wide then s.releaseLine core x slot p t (fun _ => bs) true else s.teamRelease core x slot p t (fun _ => bs)).map Prod.snd
      else ((s.controlWrite core x slot p).l2WriteAt core x p t (accessLine p bs).1 (accessLine p bs).2 false).map Prod.snd
  else
    match (s.controlWrite core x slot p).l1Write core x p bs .write ds with
    | .error f => .error f
    | .ok s => .ok (match s.l1Find core x p with
      | some y => s.wakeL1 core y.pline
      | none => s)

/-- A control-space atomic (R166, R167, R175, R296): the old value. -/
def State.controlAtomic (s : State) (core x slot : Nat) (o : MemOp) (p : Word64) (b : BitVec 128) (ds : Descs := []) :
    Except PortFault (BitVec 128 × State) :=
  let (sync, s) := s.syncOf core x p ds
  let w := 8 * o.bytes
  let off := ptrOff p % 128
  let new (d : Line) : List Byte := leBytes o.bytes (atomicNew o.code w (lineField d (8 * off) w) b)
  let old (d : Line) : BitVec 128 := BitVec.ofNat 128 (lineField d (8 * off) w)
  if sync ∧ 8 < off + o.bytes then .error (.cls 4 0)
  else if o.scope = 0 ∧ !sync then
    match (s.controlWrite core x slot p).l1Line core x p .atomic ds with
    | .error f => .error f
    | .ok (y, s) =>
      match s.l1Write core x p (new y.data) .atomic ds with
      | .error f => .error f
      | .ok s => .ok (old y.data, s.wakeL1 core y.pline)
  else
    match s.port core x p .atomic ds with
    | .error f => .error f
    | .ok (t, s) =>
      let l := (s.homeRef t.ref).line
      let s := if o.wide then s.releaseCore core x else s
      let done : Except PortFault (Line × State) :=
        if sync ∧ 2 ≤ o.order then
          if o.wide then s.releaseLine core x slot p t new false else s.teamRelease core x slot p t new
        else
          let s := s.controlWrite core x slot p
          let s := if s.heldElsewhere core l then s.promoteLine l else s
          s.l2UpdateAt core x p t (fun d => accessLine p (new d))
      match done with
      | .error f => .error f
      | .ok (d, s) => .ok (old d, if o.wide then s.acquireLine core x slot sync d else s)

/-- SLINIT (R174): a strong system-scope store of the whole line at the L2 that owns it. Sync lines are never contended (R368). -/
def State.controlInit (s : State) (core x slot : Nat) (clr : Bool) (p : Word64) (b : BitVec 128) (ds : Descs := []) : Except PortFault State :=
  match s.port core x p .write ds with
  | .error f => .error f
  | .ok (t, s) =>
    let l := (s.homeRef t.ref).line
    let s := s.controlWrite core x slot p
    let s := if s.heldElsewhere core l then s.promoteLine l else s
    match s.l2UpdateAt core x p t (fun d =>
        (if clr then BitVec.ofNat 1024 (lineField d 0 64) else syncLine (fieldOf b 0 64) 0 0, BitVec.allOnes 128)) with
    | .error f => .error f
    | .ok (_, s) =>
      let s := if clr then s.clearHeld l else s
      .ok (s.setDir l { s.dirOf l with sync := !clr, contended := false, transfers := [] })

/-! ### Tensor space -/

/-- A read-modify-write at the memory controller of a tensor address of this module or of a live one (R167, R431). -/
def State.tensorAtomicAt (s : State) (o : MemOp) (pa : Nat) (b : BitVec 128) : Except PortFault (BitVec 128 × State) :=
  if !s.isLive (paModule pa) then .error (.cls 11 0)
  else
    match s.ctlRead (paLine pa) with
    | .error c => .error (.cls c 0)
    | .ok d =>
      let w := 8 * o.bytes
      let old := lineField d (8 * (pa % 128)) w
      match s.ctlWrite (paLine pa) (placeBytes (pa % 128) (leBytes o.bytes (atomicNew o.code w old b))) (byteMask (pa % 128) o.bytes) with
      | .error c => .error (.cls c 0)
      | .ok s => .ok (BitVec.ofNat 128 old, s)

/-- The same, of a pointer. -/
def State.tensorAtomic (s : State) (core x : Nat) (o : MemOp) (p : Word64) (b : BitVec 128) (ds : Descs := []) :
    Except PortFault (BitVec 128 × State) :=
  match s.port core x p .atomic ds with
  | .error f => .error f
  | .ok (t, s) => s.tensorAtomicAt o t.pa b

/-! ### Performing an access -/

/-- The descriptor with which a lane's access was checked (R349). -/
def LaneAccess.descs (a : LaneAccess) : Descs := (a.desc.toList).map (fun w => (ptrObj a.ptr, w))

/-- Perform one lane's access in its space. Wide orders on other spaces than control publish and invalidate as on a plain
line (R286). -/
def State.performLane (s : State) (core x slot team : Nat) (o : MemOp) (a : LaneAccess) : Except PortFault (BitVec 128 × State) :=
  let bs := leBytes o.bytes a.data.toNat
  match o.sp with
  | .control =>
    match o.kind, o.init with
    | .read, _ => s.controlLoad core x slot o a.ptr a.descs
    | .atomic, _ => s.controlAtomic core x slot o a.ptr a.data a.descs
    | .write, some clr => (s.controlInit core x slot clr a.ptr a.data a.descs).map (fun s => (0, s))
    | .write, none => (s.controlStore core x slot o a.ptr bs a.descs).map (fun s => (0, s))
  | .tensor => s.tensorAtomic core x o a.ptr a.data a.descs
  | .scratch =>
    let s := if o.wide ∧ o.kind ≠ .read then s.releaseCore core x else s
    let k := s.core core
    let addr := k.scratchAddr team (fieldOf a.ptr 0 32)
    let old := k.scratchRead addr o.bytes
    if o.kind ≠ .read ∧ k.barrierIn addr o.bytes then .error (.cls 8 0)
    else
      let s := match o.kind with
        | .read => s
        | .write => s.setCore core (k.scratchWrite addr bs)
        | .atomic => s.setCore core (k.scratchWrite addr (leBytes o.bytes (atomicNew o.code (8 * o.bytes) (leNat old) a.data)))
      let s := if o.wide ∧ o.kind ≠ .write then s.invalidateL1 core x else s
      .ok (extendLoad o old, s)
  | .onchip =>
    let s := if o.wide ∧ o.kind ≠ .read then s.releaseCore core x else s
    let t := s.targetCore x a.ptr
    let w := ptrWindow a.ptr
    let there := (s.core t).windowOwner w (ptrOff a.ptr) = a.owner
    let old := if there then (s.core t).winRead w (ptrOff a.ptr) o.bytes else List.replicate o.bytes 0
    if there ∧ o.kind ≠ .read ∧ w = 1 ∧ (s.core t).barrierIn (ptrOff a.ptr) o.bytes then .error (.cls 8 0)
    else
      let s := if o.kind = .read ∨ !there then s else s.onCore t (fun k => k.winWrite w (ptrOff a.ptr) bs)
      let s := if o.wide ∧ o.kind ≠ .write then s.invalidateL1 core x else s
      .ok (extendLoad o old, s)

/-- Lanes performed so far: values, and lanes refused with why. -/
structure Performed where
  /-- Values by lane. -/
  results : List (Nat × BitVec 128)
  /-- Lanes refused at the memory port. -/
  faults : List (LaneAccess × PortFault)
  /-- Lanes that wait for a translation and try again (R378). -/
  waits : List LaneAccess
  deriving DecidableEq, Repr

/-- Perform lanes in ascending order (R166, R192). -/
def State.performLanes (s : State) (core x slot team : Nat) (o : MemOp) (ls : List LaneAccess) : Performed × State :=
  ls.foldl (fun (acc : Performed × State) a =>
    match acc.2.performLane core x slot team o a with
    | .ok (v, s) => ({ acc.1 with results := acc.1.results ++ [(a.lane, v)] }, s)
    | .error .wait => ({ acc.1 with waits := acc.1.waits ++ [a] }, acc.2)
    | .error f => ({ acc.1 with faults := acc.1.faults ++ [(a, f)] }, acc.2)) (⟨[], [], []⟩, s)

/-! ### Faults found at the memory port (R355, R423, R427) -/

/-- Kind of a port fault: class and cause. -/
def PortFault.kind : PortFault → Nat × Nat
  | .walk m _ => (6, if m then 1 else 0)
  | .cls c cause => (c, cause)
  | .wait => (0, 0)

/-- Lines awaited. -/
def PortFault.lines : PortFault → List Nat
  | .walk _ ls => ls
  | .cls _ _ => []
  | .wait => []

/-- Raise the faults of refused lanes, one record a class and cause, in whichever records hold the lanes now. A uniform
access stands for every lane of `all`. -/
def State.raisePort (s : State) (core slot : Nat) (at_ : Place) (all : Option LaneMask) (fs : List (LaneAccess × PortFault)) : State :=
  ((fs.map (fun f => f.2.kind)).eraseDups).foldl (fun s k =>
    let mine := fs.filter (fun f => f.2.kind = k)
    let lanes := all.getD (maskOf (mine.map (fun f => f.1.lane)))
    let addr := (mine.head?.map (fun f => f.1.ptr)).getD 0
    let fault : PortFault := if k.1 = 6 then .walk (k.2 = 1) ((mine.flatMap (fun f => f.2.lines)).eraseDups) else .cls k.1 k.2
    ([0, 1, 2, 3].foldl (fun (acc : LaneMask × State) _ =>
      match acc.2.group core slot with
      | none => acc
      | some g =>
        match [0, 1, 2, 3].find? (fun i => (g.prec i).state ≠ .free ∧ (g.prec i).lanes &&& acc.1 ≠ 0) with
        | none => acc
        | some i =>
          let m := (g.prec i).lanes &&& acc.1
          (acc.1 &&& ~~~m, acc.2.portFault core slot i m at_ addr fault)) (lanes, s)).2) s

/-! ### Delivering results (R31, R33) -/

/-- Write the results of an access into D; those of threads that have ended are discarded (R151). -/
def Group.deliver (g : Group) (o : MemOp) (rs : List (Nat × BitVec 128)) : Group :=
  if isS o.d then
    match rs with
    | [] => g
    | r :: _ => g.setSreg (o.d.toNat - 0xC0) (r.2.setWidth 64)
  else if isV o.d then
    (rs.filter (fun r => g.lanes.getLsbD r.1)).foldl (fun (g : Group) (r : Nat × BitVec 128) =>
      let g := g.writeV o.d.toNat (if 8 ≤ o.bytes then 2 else 1) r.1 (r.2.setWidth 64)
      if o.bytes = 16 then g.writeV (o.d.toNat + 2) 2 r.1 ((r.2 >>> 64).setWidth 64) else g) g
  else g

/-- The registers of D become FULL and their waiters wake. -/
def State.fillRegs (s : State) (core slot : Nat) (cs : List Nat) : State := cs.foldl (fun s c => s.setFull core slot c) s

/-! ### The accesses of a group (R192, R282) -/

/-- An access that program order governs: any but a tensor-space one. -/
def Access.ordered (a : Access) : Bool :=
  match memOpOf a.instr with
  | some o => o.sp != .tensor
  | none => true

/-- Turn of an outstanding access in a cycle: 0 before the words, 1 a release, after them, 2 an acquire that recalls, after
the releases (R299, R376). -/
def Access.turn (a : Access) : Nat :=
  match memOpOf a.instr with
  | none => 0
  | some o => if a.performed || o.order < 2 then 0 else if o.kind ≠ .read then 1 else if o.wide then 2 else 0

/-- An earlier access of the group is not performed. -/
def Core.accessPending (k : Core) (slot : Nat) : Bool := k.accs.any (fun a => a.2.slot == slot && !a.2.performed && a.2.ordered)

/-- An earlier access of the group to a scratchpad or to the on-chip map is not performed. -/
def Core.localPending (k : Core) (slot : Nat) : Bool :=
  k.accs.any (fun a => a.2.slot == slot && !a.2.performed &&
    ((memOpOf a.2.instr).map (fun o => o.sp == .scratch || o.sp == .onchip)).getD false)

/-- The access goes to the on-chip map. -/
def Access.crosses (a : Access) : Bool :=
  match memOpOf a.instr with
  | some o => o.sp == .onchip
  | none => false

/-- An access waits for an earlier one: of its group (R192), or of its core to the on-chip map (R267). -/
def Core.accessBlocked (k : Core) (id : Nat) (a : Access) : Bool :=
  k.accs.any (fun b => b.1 < id && !b.2.performed && b.2.ordered && a.ordered && (b.2.slot == a.slot || (b.2.crosses && a.crosses)))

/-- An earlier access of the core to the on-chip map is not performed (R267). -/
def Core.crossPending (k : Core) : Bool := k.accs.any (fun a => !a.2.performed && a.2.crosses)

/-- A load, an atomic that returns a value, or a QPOP, not complete: a producer addressed to the group (R31, R151). -/
def Access.produces (a : Access) : Bool := ((memOpOf a.instr).map (fun o => !o.dstRegs.isEmpty)).getD true

/-- Long-latency producers and copies addressed to a group's registers are outstanding (R151). -/
def Core.groupBusy (k : Core) (slot : Nat) : Bool :=
  k.accs.any (fun a => a.2.slot == slot && a.2.produces) || k.copies.any (fun c => c.2.slot == slot)

/-- The group has nothing outstanding in any space. -/
def Core.groupQuiet (k : Core) (slot : Nat) : Bool :=
  !k.accs.any (fun a => a.2.slot == slot && !a.2.performed) && !k.copies.any (fun c => c.2.slot == slot)

/-- Record an outstanding access; its result returns from its cycle on. -/
def State.addAccess (s : State) (core : Nat) (a : Access) : State :=
  let id := (s.core core).nextAcc
  s.onCore core (fun k => { k with accs := tabPut k.accs id a, nextAcc := id + 1 })

/-! ### Fences (R169, R170) -/

/-- FENCE at a scope, for a context on a core. -/
def State.fenceCore (s : State) (core x scope : Nat) : State :=
  if scope = 0 then s else (s.releaseCore core x).invalidateL1 core x

/-- Steps 1 and 2 of FENCESC for the group's records that wait for them: once nothing of the group is outstanding, the
fence is made. -/
def State.scProgress (s : State) (core slot : Nat) : State :=
  match s.group core slot with
  | none => s
  | some g =>
    if !(s.core core).groupQuiet slot then s
    else
      [0, 1, 2, 3].foldl (fun s i =>
        let q := g.prec i
        if q.state = .parked ∧ q.reason = 7 ∧ q.drained = none then
          (s.fenceCore core g.ctx q.obj.toNat).onPrec core slot i (fun q => { q with drained := some s.time })
        else s) s

/-- A line operation writes tensor space. -/
def LineOp.tensorWrite (o : LineOp) : Bool :=
  o.pieces.any (fun p => match p.dst with | .ptr d => ptrTag d == 1 | .phys _ _ => true | .line _ _ d => ptrTag d == 1 | .scratch _ => false)

/-- Tensor-space writes of a group that are not acknowledged (R171). -/
def Core.tensorPending (k : Core) (slot : Nat) : Bool :=
  k.accs.any (fun a => a.2.slot == slot && !a.2.ordered) ||
    k.copies.any (fun c => c.2.slot == slot && (c.2.todo.any LineOp.tensorWrite || c.2.flying.any (fun o => o.op.tensorWrite)))

/-- Records in TFENCE wake once every tensor-space write of the group is acknowledged. -/
def State.tensorProgress (s : State) (core slot : Nat) : State :=
  if (s.core core).tensorPending slot then s
  else
    match s.group core slot with
    | none => s
    | some g => [0, 1, 2, 3].foldl (fun s i =>
        if (g.prec i).state = .parked ∧ (g.prec i).reason = 8 then s.wakeWith core slot i 0 else s) s

/-- What may follow once something outstanding of a group is done. -/
def State.progress (s : State) (core slot : Nat) : State := ((s.scProgress core slot).tensorProgress core slot).checkEnd core slot

end Sys2Proof.Machine
end

