-- ==== Sys2Proof/Machine/Coherence.lean ====
section
/-! DEFINITION. Sys2Proof/Machine/Coherence.lean: requests that agents make of a line's home, forwards that homes make of
agents (R364–R374), and the accesses of host agents (R23, R373, R409). The bytes that an agent of another module writes
come with its request. -/

namespace Sys2Proof.Machine

/-! ### Requests (R367, R372) -/

/-- A caching agent of the domain (R362): its number is that of a live module and of an agent that exists. -/
def State.isAgent (s : State) (a : Nat) : Bool := a % 8 < 6 && a / 8 < 256 && s.isLive (a / 8)

/-- Class of service of an agent's fills: the host cores' class at this module's host agents. -/
def State.agentCos (s : State) (a : Nat) : Nat := if a / 8 = s.moduleId.toNat ∧ 4 ≤ a % 8 then s.hostCos.toNat else 0

/-- A line reference that a home of the domain can serve. -/
def lineOk (r : LineRef) : Bool := paPresent (r.line * 128) && r.line < 2 ^ 49 && r.mirror < 256

/-- A held line's agent. -/
def Held.agent (h : Held) : Nat := h.module * 8 + coreDie h.core

/-- Promote a line that an agent other than one holds (R365, R372). -/
def State.recallFor (s : State) (l a : Nat) : State :=
  match (s.dirOf l).held with
  | some h => if h.agent = a then s else s.promoteLine l
  | none => s

/-- What succeeds changes the state; an error response changes nothing. -/
def orElse (s : State) : Except Nat State → State
  | .ok t => t
  | .error _ => s

/-- HOME_READ_REQUEST (R367, R372). -/
def execHomeReadRequest (r : LineRef) (a : Nat) (acquire : Bool) (s : State) : Host.Outcome State Fault Refusal :=
  let h := s.homeRef r
  let reads := match s.agentLine a h.line with
    | some x => x.state == .pw
    | none => true
  .next (if !lineOk r || !s.isAgent a || !reads then s
    else
      let s := if acquire then s.recallFor h.line a else s
      orElse s (s.homeReadReq h a (s.agentCos a)))

/-- HOME_OWNERSHIP_REQUEST (R367): ownership, and the write that asked for it. -/
def execHomeOwnershipRequest (r : LineRef) (a : Nat) (whole : Bool) (mask : ByteMask) (d : Line) (s : State) :
    Host.Outcome State Fault Refusal :=
  let h := s.homeRef r
  .next (if !lineOk r || !s.isAgent a then s
    else
      let s := s.recallFor h.line a
      orElse s (s.agentWrite a h d mask (whole || s.isSync h.line) (s.agentCos a) none))

/-- HOME_MASK_REQUEST (R367, R376): a holder's mask grows, and the write that asked for it. From an agent that holds
nothing it is served as an ownership request. -/
def execHomeMaskRequest (r : LineRef) (a : Nat) (mask : ByteMask) (d : Line) (s : State) : Host.Outcome State Fault Refusal :=
  let h := s.homeRef r
  .next (if !lineOk r || !s.isAgent a then s
    else
      let s := s.recallFor h.line a
      orElse s (s.agentWrite a h d mask (s.isSync h.line) (s.agentCos a) none))

/-- HOME_WRITE_BACK (R365, R367); a line that the agent holds for a core is promoted first (R291). -/
def execHomeWriteBack (r : LineRef) (a : Nat) (s : State) : Host.Outcome State Fault Refusal :=
  let h := s.homeRef r
  .next (if !lineOk r then s
    else
      let s := if ((s.dirOf h.line).held.map Held.agent) = some a then s.promoteLine h.line else s
      orElse s (s.homeWriteBack h a))

/-- SHARER_EVICT_NOTICE (R365). -/
def execSharerEvictNotice (r : LineRef) (a : Nat) (s : State) : Host.Outcome State Fault Refusal :=
  .next (if lineOk r then s.sharerEvict (s.homeRef r) a else s)

/-! ### Forwards (R365, R369, R371, R372) -/

/-- The home's entry names an agent as owner, which holds the line. -/
def State.forwards (s : State) (r : HomeRef) (a b : Nat) : Bool :=
  let d := s.dirOf r.line
  (d.state == .x || d.state == .o) && d.owner == a && a != b && s.isAgent b &&
    (match s.agentLine a r.line with
      | some x => x.state == .m || x.state == .o || x.state == .e
      | none => false)

/-- READ_FORWARD (R365): the owner sends the line to the agent that reads. -/
def execReadForward (r : LineRef) (a b : Nat) (s : State) : Host.Outcome State Fault Refusal :=
  let h := s.homeRef r
  .next (if lineOk r && s.forwards h a b && (s.agentLine b h.line).isNone then orElse s (s.homeReadReq h b (s.agentCos b)) else s)

/-- OWNERSHIP_FORWARD (R365): a held line is promoted first; the owner sends the line and is in I. -/
def execOwnershipForward (r : LineRef) (a b : Nat) (s : State) : Host.Outcome State Fault Refusal :=
  let h := s.homeRef r
  .next (if lineOk r && s.forwards h a b then
      let s := s.recallFor h.line b
      orElse s (s.homeOwnWhole h b (s.agentCos b))
    else s)

/-- INVALIDATE (R365): an agent in S is in I, and the home no longer names it. -/
def execInvalidate (r : LineRef) (a : Nat) (s : State) : Host.Outcome State Fault Refusal :=
  .next (if lineOk r then s.sharerEvict (s.homeRef r) a else s)

/-- CONVERT (R369): the owner of an unprivatised plain line writes it back and keeps its dirty bytes as Pw. -/
def execConvert (r : LineRef) (a : Nat) (s : State) : Host.Outcome State Fault Refusal :=
  let h := s.homeRef r
  let d := s.dirOf h.line
  .next (if !lineOk r || d.sync || !(d.state == .x || d.state == .o) || d.owner != a then s
    else
      match s.convertAgent a h.line with
      | (none, _) => s
      | (some (data, m), t) =>
        orElse s (do
          let t ← (t.invalidateAll d.sharers h.line).homeWrite h data (BitVec.allOnes 128)
          return t.setDir h.line { d with state := .p, owner := 0, sharers := [], masks := [(a, m)], lastMove := s.time }))

/-- GATHER (R371). -/
def execGather (r : LineRef) (s : State) : Host.Outcome State Fault Refusal :=
  .next (if lineOk r then orElse s (s.gather (s.homeRef r)) else s)

/-- RECALL (R372): the holding agent promotes the line. -/
def execRecall (r : LineRef) (a : Nat) (s : State) : Host.Outcome State Fault Refusal :=
  let l := (s.homeRef r).line
  .next (match (s.dirOf l).held with
    | some h => if lineOk r && h.agent == a then s.promoteLine l else s
    | none => s)

/-- MIRROR_UPDATE (R374): the mirror home takes the primary's bytes and entry, whatever its slot held (R363). -/
def execMirrorUpdate (r : LineRef) (s : State) : Host.Outcome State Fault Refusal :=
  let h := s.homeRef r
  .next (match s.liveSlot h with
    | none => s
    | some m =>
      if !lineOk r || !inPrimary (h.line * 128) || !hasMirror r || !s.isLive (paModule (h.line * 128)) then s
      else
        match s.ctlRead h.line with
        | .error _ => s
        | .ok d =>
          orElse s (do
            let t ← s.ctlWrite m d (BitVec.allOnes 128)
            return t.setDir h.line { t.dirOf h.line with mirror := some m }))

/-- CONTENTION_EXPIRY (R368). -/
def execContentionExpiry (r : LineRef) (s : State) : Host.Outcome State Fault Refusal :=
  let l := (s.homeRef r).line
  .next (if lineOk r then s.setDir l ((s.dirOf l).expire s.time) else s)

/-! ### Host agents (R23, R281, R373, R409) -/

/-- Where a host access is performed. -/
inductive HostPlace where
  /-- A control-space line, at the host agent. -/
  | line (r : LineRef)
  /-- Tensor space, at the memory controller. -/
  | memory (pa : Nat)
  deriving DecidableEq, Repr

/-- Place of a byte of a host target. -/
def State.hostPlace (s : State) (t : HostTarget) (off : Nat) : Option (HostPlace × Nat × State) :=
  match t with
  | .pointer x p =>
    let q := ptrWithOff p (ptrOff p + off)
    match s.sysPort schedCoreNumber x q with
    | .error _ => none
    | .ok (u, s) => if ptrTag p = 1 then some (.memory u.pa, u.pa % 128, s) else some (.line ⟨paLine u.pa, u.mirror⟩, u.pa % 128, s)
  | .physical pa mirror => if paPresent (pa + off) then some (.line ⟨paLine (pa + off), mirror⟩, (pa + off) % 128, s) else none
  | .tensor pa => if paPresent (pa + off) then some (.memory (pa + off), (pa + off) % 128, s) else none
  | .register _ => none
  where
    /-- Host pointers are translated through the tables that core 0 reads. -/
    schedCoreNumber : Nat := 0

/-- Pieces of a host access: offset within it, and bytes. -/
def hostPieces (t : HostTarget) (n : Nat) : List (Nat × Nat) :=
  match t with
  | .pointer _ p => linePieces (ptrOff p) n
  | .physical pa _ => linePieces pa n
  | .tensor pa => linePieces pa n
  | .register _ => []

/-- A host read of bytes of a line: a held line is recalled. -/
def State.hostRead (s : State) (a : Nat) (r : LineRef) (m : ByteMask) : Except Nat (Line × State) :=
  let h := s.homeRef r
  (s.recallFor h.line a).agentRead a h m s.hostCos.toNat

/-- What a host write of bytes makes of a line (R373): on VALUE of a sync line every SHEAF bit is set and EPOCH is one more. -/
def hostChange (sync : Bool) (off : Nat) (bytes : Line → List Byte) (old : Line) : Line × ByteMask :=
  let bs := bytes old
  let m := byteMask off bs.length
  let d := placeBytes off bs
  if sync && off < 8 && bs.length != 0 then
    (syncLine (lineField (mergeLine old d m) 0 64) (lineEpoch old + 1) (BitVec.allOnes 512), BitVec.allOnes 128)
  else (d, m)

/-- A host store of bytes of a line. A write of the whole line clears a failed mark (R428). -/
def State.hostStore (s : State) (a : Nat) (r : LineRef) (off : Nat) (bs : List Byte) : Except Nat State := do
  let h := s.homeRef r
  let m := byteMask off bs.length
  let d := placeBytes off bs
  let s := s.recallFor h.line a
  if s.isSync h.line then
    let (_, s) ← s.agentUpdate a h s.hostCos.toNat none (hostChange true off (fun _ => bs))
    return s
  else
    let s ← (if m = BitVec.allOnes 128 then
        match s.homeRead h with
        | .error 19 => s.homeWrite h d m
        | _ => .ok s
      else .ok s)
    s.agentWrite a h d m false s.hostCos.toNat none

/-- One piece of a host read: its bytes join those of the access's answer. -/
def State.hostReadPiece (s : State) (a : Nat) (t : HostTarget) (off n : Nat) : State :=
  let got (s : State) (bs : List Byte) : State := { s with hostData := s.hostData ++ bs }
  match s.hostPlace t off with
  | some (.line r, o, s) =>
    match s.hostRead a r (byteMask o n) with
    | .ok (d, s) => got s (lineBytes d o n)
    | .error _ => s
  | some (.memory pa, o, s) =>
    if !s.isLive (paModule pa) then s
    else
      match s.ctlRead (paLine pa) with
      | .ok d => got s (lineBytes d o n)
      | .error _ => s
  | none => s

/-- One piece of a host write. -/
def State.hostWritePiece (s : State) (a : Nat) (t : HostTarget) (off : Nat) (bs : List Byte) : State :=
  match s.hostPlace t off with
  | some (.line r, o, s) => orElse s (s.hostStore a r o bs)
  | some (.memory pa, o, s) =>
    if s.isLive (paModule pa) then orElse s (s.ctlWrite (paLine pa) (placeBytes o bs) (byteMask o bs.length)) else s
  | none => s

/-- A host atomic within one line; it is answered with the value before it. -/
def State.hostAtomic (s : State) (a : Nat) (t : HostTarget) (op w : Nat) (x : BitVec 128) : State :=
  let new (d : Line) (o : Nat) : List Byte := leBytes w (atomicNew op (8 * w) (lineField d (8 * o) (8 * w)) x)
  let was (s : State) (d : Line) (o : Nat) : State := { s with hostData := lineBytes d o w }
  match s.hostPlace t 0 with
  | some (.line r, o, s) =>
    let h := s.homeRef r
    let s := s.recallFor h.line a
    match s.agentUpdate a h s.hostCos.toNat none (hostChange (s.isSync h.line) o (fun d => new d o)) with
    | .ok (d, s) => was s d o
    | .error _ => s
  | some (.memory pa, o, s) =>
    if !s.isLive (paModule pa) then s
    else
      match s.ctlRead (paLine pa) with
      | .error _ => s
      | .ok d => was (orElse s (s.ctlWrite (paLine pa) (placeBytes o (new d o)) (byteMask o w))) d o
  | none => s

end Sys2Proof.Machine
end

