-- ==== Sys2Proof/Machine/Floating.lean ====
section
/-! DEFINITION. Sys2Proof/Machine/Floating.lean: the floating-point and conversion instructions (R110–R124). -/

namespace Sys2Proof.Machine

/-! ### Generators (R52) -/

/-- A lane's generator. -/
def Group.gen (g : Group) (lane : Nat) : Word64 := tabGet 0 g.gens lane

/-- Set a lane's generator. -/
def Group.setGen (g : Group) (lane : Nat) (x : Word64) : Group := { g with gens := tabSet 0 g.gens lane x }

/-- Advance the generators of some lanes once. -/
def Group.drawGens (g : Group) (ls : List Nat) : Group := ls.foldl (fun g l => g.setGen l (nextGen (g.gen l))) g

/-- The generators of a new group: SeedLane(0, L) in every lane (R53). -/
def seedAll (seed : Word64) : Table Word64 := (List.range 32).map (fun l => (l, seedLane seed l))

/-! ### Shared forms -/

/-- MOD[2:0] as a rounding mode 0 to 3. -/
def roundMode {w : Nat} (m : BitVec w) : Rounding := roundingOf (fieldOf m 0 3) 0

/-- An instruction of this chapter: results into an s register are extended by zeros (R110). -/
def fltOp (i : Instr) (f : FmtA) (n : Nat) (r : Group → Nat → Word64) (s : State) : Host.Outcome State Fault Refusal :=
  s.compute i f.guard f.d n false (fun e l => r e.g l)

/-- Elementwise with one rounding (R110). -/
def fltElems (i : Instr) (f : FmtA) (op : FVal → FVal → FVal → FVal) (s : State) : Host.Outcome State Fault Refusal :=
  fltOp i f 1 (fun g l => floatElems f.ty (roundMode f.mod) op (f.valA g l) (f.valB g l) (f.valC g l)) s

/-- Elementwise on codes, with no rounding. -/
def codeOp (i : Instr) (f : FmtA) (op : FloatFmt → Nat → Nat → Nat) (s : State) : Host.Outcome State Fault Refusal :=
  fltOp i f 1 (fun g l => codeElems f.ty op (f.valA g l) (f.valB g l)) s

/-- A function of one f32 code (R116). -/
def transOp (i : Instr) (f : FmtA) (op : Nat → Nat) (s : State) : Host.Outcome State Fault Refusal :=
  fltOp i f 1 (fun g l => BitVec.ofNat 64 (op (elemBits (f.valA g l) 32 0))) s

/-- Rounding toward −∞, under which a sum of zero is −0 (R55). -/
def roundDown {w : Nat} (m : BitVec w) : Bool := fieldOf m 0 3 == 2

/-! ### Arithmetic (R111–R118) -/

/-- FADD (R111). -/
def execFadd (f : FmtA) (s : State) : Host.Outcome State Fault Refusal :=
  fltElems (.fadd f) f (fun x y _ => FVal.add (roundDown f.mod) x y) s

/-- FSUB (R111). -/
def execFsub (f : FmtA) (s : State) : Host.Outcome State Fault Refusal :=
  fltElems (.fsub f) f (fun x y _ => FVal.add (roundDown f.mod) x y.negate) s

/-- FMUL (R111). -/
def execFmul (f : FmtA) (s : State) : Host.Outcome State Fault Refusal :=
  fltElems (.fmul f) f (fun x y _ => FVal.mul x y) s

/-- FFMA (R111). -/
def execFfma (f : FmtA) (s : State) : Host.Outcome State Fault Refusal :=
  fltElems (.ffma f) f (fun x y z => FVal.add (roundDown f.mod) (FVal.mul x y) z) s

/-- FMIN (R112). -/
def execFmin (f : FmtA) (s : State) : Host.Outcome State Fault Refusal :=
  codeOp (.fmin f) f (fun m x y => minMax m false false x y) s

/-- FMAX (R112). -/
def execFmax (f : FmtA) (s : State) : Host.Outcome State Fault Refusal :=
  codeOp (.fmax f) f (fun m x y => minMax m true false x y) s

/-- FMINM (R112). -/
def execFminm (f : FmtA) (s : State) : Host.Outcome State Fault Refusal :=
  codeOp (.fminm f) f (fun m x y => minMax m false true x y) s

/-- FMAXM (R112). -/
def execFmaxm (f : FmtA) (s : State) : Host.Outcome State Fault Refusal :=
  codeOp (.fmaxm f) f (fun m x y => minMax m true true x y) s

/-- FCMP (R113). -/
def execFcmp (f : FmtA) (s : State) : Host.Outcome State Fault Refusal :=
  codeOp (.fcmp f) f (fun m x y =>
    if floatCond (fieldOf f.mod 7 3) (m.decode x) (m.decode y) then 2 ^ m.width - 1 else 0) s

/-- FCLASS (R114). -/
def execFclass (f : FmtA) (s : State) : Host.Outcome State Fault Refusal :=
  codeOp (.fclass f) f (fun m x _ => classOf m x) s

/-- FRCP (R115). -/
def execFrcp (f : FmtA) (s : State) : Host.Outcome State Fault Refusal :=
  fltElems (.frcp f) f (fun x _ _ => x.recip) s

/-- FRSQ (R115). -/
def execFrsq (f : FmtA) (s : State) : Host.Outcome State Fault Refusal :=
  fltElems (.frsq f) f (fun x _ _ => x.rsqrt) s

/-- FSQRT (R115). -/
def execFsqrt (f : FmtA) (s : State) : Host.Outcome State Fault Refusal :=
  fltElems (.fsqrt f) f (fun x _ _ => x.sqrt) s

/-- FDIV (R115). -/
def execFdiv (f : FmtA) (s : State) : Host.Outcome State Fault Refusal :=
  fltElems (.fdiv f) f (fun x y _ => FVal.div x y) s

/-- FEXP2 (R116). -/
def execFexp2 (f : FmtA) (s : State) : Host.Outcome State Fault Refusal := transOp (.fexp2 f) f exp2Code s

/-- FLOG2 (R116). -/
def execFlog2 (f : FmtA) (s : State) : Host.Outcome State Fault Refusal := transOp (.flog2 f) f log2Code s

/-- FSIN (R116). -/
def execFsin (f : FmtA) (s : State) : Host.Outcome State Fault Refusal := transOp (.fsin f) f sinCode s

/-- FCOS (R116). -/
def execFcos (f : FmtA) (s : State) : Host.Outcome State Fault Refusal := transOp (.fcos f) f cosCode s

/-- FTANH (R116). -/
def execFtanh (f : FmtA) (s : State) : Host.Outcome State Fault Refusal := transOp (.ftanh f) f tanhCode s

/-- FSIGM (R116). -/
def execFsigm (f : FmtA) (s : State) : Host.Outcome State Fault Refusal := transOp (.fsigm f) f sigmCode s

/-- FRND (R117). -/
def execFrnd (f : FmtA) (s : State) : Host.Outcome State Fault Refusal :=
  fltElems (.frnd f) f (fun x _ _ => x.integral (roundMode f.mod)) s

/-- The power of two of element i in FSCALE (R117). -/
def scaleCount (t : BitVec 4) (b : Word64) (i : Nat) : Int := elemInt b (elemWidth t) i true

/-- FSCALE (R117). -/
def execFscale (f : FmtA) (s : State) : Host.Outcome State Fault Refusal :=
  fltOp (.fscale f) f 1 (fun g l =>
    let m := fmtOfType f.ty
    BitVec.ofNat 64 (packElems (elemWidth f.ty) ((List.range (tyElems f.ty)).map (fun i =>
      m.round (roundMode f.mod) false
        ((m.decode (elemBits (f.valA g l) (elemWidth f.ty) i)).scale (scaleCount f.ty (f.valB g l) i)))))) s

/-- FFRAC (R117). -/
def execFfrac (f : FmtA) (s : State) : Host.Outcome State Fault Refusal :=
  codeOp (.ffrac f) f (fun m x _ => fracCode m (roundMode f.mod) x) s

/-- FDOT2 (R118). -/
def execFdot2 (f : FmtA) (s : State) : Host.Outcome State Fault Refusal :=
  fltOp (.fdot2 f) f 1 (fun g l => dotFloat f.ty (roundMode f.mod) (f.valA g l) (f.valB g l) (g.read f.c 1 l)) s

/-! ### Conversions (R119–R124) -/

/-- FROM -/
def fromType {w : Nat} (m : BitVec w) : BitVec 4 := BitVec.ofNat 4 (fieldOf m 7 4)

/-- CVT (R119). -/
def execCvt (f : FmtA) (s : State) : Host.Outcome State Fault Refusal :=
  fltOp (.cvt f) f (tyRegs f.ty) (fun g l =>
    convLane f.ty (fromType f.mod) (fieldOf f.mod 11 2) (roundMode f.mod) f.sat (g.read f.a (tyRegs (fromType f.mod)) l)) s

/-- Write results that draw on the lanes' generators, each of which advances once (R52). Where the word executes once for
an s register, the lowest Active lane's generator serves it. -/
def srOp (i : Instr) (f : FmtA) (draws : Bool) (r : Iss → Nat → Nat → Word64) (s : State) : Host.Outcome State Fault Refusal :=
  s.issue i f.guard always always (fun e s => s.result e (fun g =>
    let ls := if !draws then [] else if isS f.d then [lowestLane e.act] else lanesOf e.act
    (g.drawGens ls).write f.d 1 false e.act (fun l => r e l (genDraw (e.g.gen l)))))

/-- CVTSR (R120). -/
def execCvtsr (f : FmtA) (s : State) : Host.Outcome State Fault Refusal :=
  srOp (.cvtsr f) f true (fun e l q => convLane f.ty 8 (fieldOf f.mod 11 2) (.sr q) f.sat (e.g.read f.a 1 l)) s

/-- PACK (R121). -/
def execPack (f : FmtA) (s : State) : Host.Outcome State Fault Refusal :=
  fltOp (.pack f) f 1 (fun g l =>
    packLane f.ty (fromType f.mod) (fieldOf f.mod 11 2) (roundMode f.mod) f.sat (g.read f.a 1 l) (g.read f.b 1 l) (g.read f.c 1 l)) s

/-- UNPK (R122). -/
def execUnpk (f : FmtA) (s : State) : Host.Outcome State Fault Refusal :=
  fltOp (.unpk f) f 2 (fun g l => unpackLane f.ty (fieldOf f.mod 11 2) (g.read f.a 1 l)) s

/-- The block scale of QMX: the f32 values of the Active lanes (R123). -/
def blockScale (f : FmtA) (e : Iss) : Nat :=
  mxScale (fieldOf f.mod 4 3) ((lanesOf e.act).map (fun l => f32Fmt.decode (elemBits (e.g.read f.a 1 l) 32 0)))

/-- QMX (R123). -/
def execQmx (f : FmtA) (s : State) : Host.Outcome State Fault Refusal :=
  srOp (.qmx f) f (fieldOf f.mod 0 3 == 4) (fun e l q =>
    qmxLane (fieldOf f.mod 4 3) (blockScale f e) (roundingOf (fieldOf f.mod 0 3) q) (e.g.read f.a 1 l)) s

/-- DQMX (R124). -/
def execDqmx (f : FmtA) (s : State) : Host.Outcome State Fault Refusal :=
  fltOp (.dqmx f) f 1 (fun g l => dqmxLane (fieldOf f.mod 4 3) (roundMode f.mod) (g.read f.a 1 l)) s

end Sys2Proof.Machine
end

