-- ==== Sys2Proof/Machine/Control.lean ====
section
/-! DEFINITION. Sys2Proof/Machine/Control.lean: transfers of control, loops, splits, and threads that begin and end
(R138–R152). -/

namespace Sys2Proof.Machine

/-- NOP (R80, R156). -/
def execNop (s : State) : Host.Outcome State Fault Refusal :=
  s.issue .nop 0 always always (fun e s => s.after e)

/-! ### Targets (R74, R141) -/

/-- The target of a format J word, and whether its offset left the 40-bit field (R74). -/
def jumpTarget (pc : Word64) (off : BitVec 32) : Word64 × Bool :=
  let x : Int := (ptrOff pc : Int) + 8 * off.toInt
  (ptrWithOff pc (lowBits 40 x), x < 0 || (2 : Int) ^ 40 ≤ x)

/-- What the check of a target finds. -/
inductive TargetCheck where
  /-- A header stands there. -/
  | ok
  /-- A fault of the lanes that name it. -/
  | lanes (cls : Nat)
  /-- A whole-instruction fault. -/
  | whole (cls : Nat)
  /-- Its word cannot be fetched at the memory port. -/
  | port (f : PortFault)
  deriving DecidableEq, Repr

/-- Check a target in the order of R141. -/
def State.checkTarget (s : State) (core x : Nat) (t : Word64 × Bool) : TargetCheck × State :=
  if t.2 then (.lanes 3, s)
  else if ptrTag t.1 ≠ 0 then (.lanes 2, s)
  else if ptrOff t.1 % 8 ≠ 0 then (.whole 1, s)
  else
    match s.fetchWord core x t.1 with
    | (.word w, s) => (if isHeader w then .ok else .whole 1, s)
    | (.cls c, s) => (.whole c, s)
    | (.port f, s) => (.port f, s)

/-- Check a target that every Active lane names; where it passes, go on with `k`. -/
def State.withTarget (s : State) (e : Iss) (t : Word64 × Bool) (k : State → State) : State :=
  match s.checkTarget e.core e.g.ctx t with
  | (.ok, s) => k s
  | (.lanes c, s) => s.lanesFault e e.act c t.1 0 0
  | (.whole c, s) => s.wholeFault e c t.1 (lowestLane e.q.lanes)
  | (.port f, s) => s.portFault e.core e.slot e.prec e.q.lanes e.q.place t.1 f

/-! ### Uniform, split or fault (R138–R140) -/

/-- LANE of a uniformity fault (R139): the lowest lane whose condition or target differs from the lowest lane's. -/
def oddLane (e : Iss) (tgt : Nat → Word64 × Bool) : Nat :=
  let l0 := lowestLane e.q.lanes
  ((lanesOf e.q.lanes).find? (fun l =>
    e.act.getLsbD l != e.act.getLsbD l0 || (e.act.getLsbD l && tgt l != tgt l0))).getD l0

/-- A uniformity fault (R139). -/
def State.uniformity (s : State) (e : Iss) (tgt : Nat → Word64 × Bool) : State :=
  s.wholeFault e 7 e.pc (oddLane e tgt)

/-- Active is the whole path and every lane names one target. -/
def isUniform (e : Iss) (tgt : Nat → Word64 × Bool) : Bool :=
  e.act == e.q.lanes && (lanesOf e.act).all (fun l => tgt l == tgt (lowestLane e.act))

/-- Distinct targets of the Active lanes, each with its lanes, in the order of the lowest lane. -/
def targetHalves (e : Iss) (tgt : Nat → Word64 × Bool) : List ((Word64 × Bool) × LaneMask) :=
  ((lanesOf e.act).map tgt).eraseDups.map (fun t => (t, maskOf ((lanesOf e.act).filter (fun l => tgt l == t))))

/-- The reconvergence stack of the halves of a split (R243). -/
def halfStack (stack : List Word64) : Option Word64 → List Word64
  | none => []
  | some h => (h :: stack).take 4

/-- A half of a path. -/
def PathRec.half (q : PathRec) (lanes : LaneMask) (p : Place) : PathRec :=
  { q with lanes := lanes, place := p, answer := none, arrive := none, drained := none, waitPtrs := [], woken := false }

/-- One demotion event of a context (R138, R424). -/
def State.countDemotion (s : State) (x : Nat) : State :=
  let c := s.ctx x
  s.setCtx x { c with log := { c.log with demote := satInc c.log.demote } }

/-- Rank the halves of the group's splits with its other paths, once for all of them (R140, R155). Where a spill cannot be
performed yet, each path that split waits to issue its word again (R245). -/
def State.rankSplits (s : State) (core slot : Nat) : State :=
  match s.group core slot with
  | none => s
  | some g =>
    let s := s.onGroup core slot (fun g => { g with splits := [] })
    match s.arrange core slot (g.pathsBut (g.splits.map SplitWait.prec) ++ g.splits.flatMap SplitWait.halves) with
    | .error w => g.splits.foldl (fun s x => s.spillWait core slot x.prec w) s
    | .ok s => g.splits.foldl (fun s x => if x.demoted then s.countDemotion g.ctx else s) s

/-- Divide the issuing path into its fall-through half and the taken halves (R140). They are ranked at once, unless the
group's other path has yet to issue its word of this cycle (R155). -/
def State.split (s : State) (e : Iss) (i : Instr) (halves : List (Word64 × LaneMask)) (demoted : Bool) : State :=
  let (reconv, s) := match s.fetchWord e.core e.g.ctx e.q.place.block with
    | (.word w, s) => (headerReconv e.q.place.block w, s)
    | (_, s) => (none, s)
  let p := { e.q.place with stack := halfStack e.q.place.stack reconv }
  let taken := halves.foldl (fun m h => m ||| h.2) 0
  let rest := e.q.lanes &&& ~~~taken
  if rest ≠ 0 ∧ !s.backOk e then s.wholeFault e 1 (e.q.place.loopStart.getD 0) (lowestLane e.q.lanes)
  else
    let cands :=
      (if rest = 0 then [] else [⟨e.q.half rest p.after, 1, 0, none, e.prec⟩])
      ++ halves.map (fun h => ⟨e.q.half h.2 (p.transfer h.1), 2, h.1.toNat, none, e.prec⟩)
    let s := s.onGroup e.core e.slot (fun g => { g with splits := g.splits ++ [⟨e.prec, e.q, e.act, i, cands, demoted⟩] })
    if s.groupIssues e.core e.slot then s else s.rankSplits e.core e.slot

/-- What the checks of the targets of an issuing word find: each target that an Active lane names, its lanes, and its check
(R141). -/
def State.checkTargets (s : State) (e : Iss) (tgt : Nat → Word64 × Bool) : List (Word64 × LaneMask × TargetCheck) × State :=
  (targetHalves e tgt).foldl (fun (acc : List (Word64 × LaneMask × TargetCheck) × State) h =>
    let (r, s) := acc.2.checkTarget e.core e.g.ctx h.1
    (acc.1 ++ [(h.1.1, h.2, r)], s)) ([], s)

/-- What comes of the checks before the transfer is decided (R141, R154): a target that is no header is an illegal
instruction, and a target that is not present is waited for. -/
def State.targetsFirst (s : State) (e : Iss) (found : List (Word64 × LaneMask × TargetCheck)) : Option State :=
  match found.find? (fun x => x.2.2 == .whole 1) with
  | some x => some (s.wholeFault e 1 x.1 (lowestLane e.q.lanes))
  | none => found.findSome? (fun x => match x.2.2 with
    | .port (.walk m ls) => some (s.portFault e.core e.slot e.prec e.q.lanes e.q.place x.1 (.walk m ls))
    | .port .wait => some s
    | _ => none)

/-- What comes of them after it (R141, R154): a fetch that is refused faults the whole path, a space mismatch or an offset
out of range the lanes that name the target. -/
def State.targetsLast (s : State) (e : Iss) (found : List (Word64 × LaneMask × TargetCheck)) : Option State :=
  match found.findSome? (fun x => match x.2.2 with
    | .whole c => some (s.wholeFault e c x.1 (lowestLane e.q.lanes))
    | .port f => some (s.portFault e.core e.slot e.prec e.q.lanes e.q.place x.1 f)
    | _ => none) with
  | some s => some s
  | none =>
    let bad := found.flatMap (fun x => match x.2.2 with
      | .lanes c => (lanesOf x.2.1).map (fun l => (l, c, x.1))
      | _ => [])
    if bad.isEmpty then none else some (s.raiseLanes e bad)

/-- The launch's UNIFORM_DEMOTE flag. -/
def State.demotes (s : State) (launch : Nat) : Bool := ((tabFind s.launches launch).map Launch.demote).getD false

/-- A non-uniform transfer that splits: a half that would stand where the fall-through half does joins it (R140). One that goes
back to the start of a loop whose end word it issued has not counted that iteration (R147), and stays apart: DEDUCED (log 164).
Where no half is left the path goes on. -/
def State.divide (s : State) (e : Iss) (i : Instr) (found : List (Word64 × LaneMask × TargetCheck)) (demoted : Bool) : State :=
  let halves := (found.filter (fun x => e.q.place.transfer x.1 != e.q.place.after)).map (fun x => (x.1, x.2.1))
  if halves.isEmpty then (if demoted then s.countDemotion e.g.ctx else s).after e else s.split e i halves demoted

/-- A transfer of the lanes of T under R138, in the order of R154. `div` splits; `demote` does so under the launch's flag.
Lanes whose own target faults leave a path that splits; the rest of it issues the word again. -/
def State.decideTransfer (s : State) (e : Iss) (i : Instr) (tgt : Nat → Word64 × Bool) (div demote : Bool)
    (uniform : Word64 → State → State) : State :=
  let (found, s) := s.checkTargets e tgt
  match s.targetsFirst e found with
  | some t => t
  | none =>
    let demoted := !div && demote && s.demotes e.g.launch
    if !isUniform e tgt && !div && !demoted then s.uniformity e tgt
    else
      match s.targetsLast e found with
      | some t => t
      | none => if isUniform e tgt then uniform (tgt (lowestLane e.act)).1 s else s.divide e i found demoted

/-- The path goes to a target, popping loop frames it leaves (R142). -/
def State.jump (s : State) (e : Iss) (t : Word64) : State := s.goTo e.core e.slot e.prec (e.q.place.transfer t)

/-- The target that a format J word gives every lane. -/
def jumpOf (f : FmtJ) (e : Iss) (_ : Nat) : Word64 × Bool := jumpTarget e.pc f.off

/-- The target that A gives a lane. -/
def regTarget (f : FmtA) (e : Iss) (lane : Nat) : Word64 × Bool := (e.g.read f.a 2 lane, false)

/-- BR (R143). -/
def execBr (f : FmtJ) (s : State) : Host.Outcome State Fault Refusal :=
  s.issue (.br f) f.guard always always (fun e s => s.decideTransfer e (.br f) (jumpOf f e) false true (fun t s => s.jump e t))

/-- BRD (R143). -/
def execBrd (f : FmtJ) (s : State) : Host.Outcome State Fault Refusal :=
  s.issue (.brd f) f.guard always always (fun e s => s.decideTransfer e (.brd f) (jumpOf f e) true false (fun t s => s.jump e t))

/-- BRX (R143). -/
def execBrx (f : FmtA) (s : State) : Host.Outcome State Fault Refusal :=
  s.issue (.brx f) f.guard always always (fun e s =>
    s.decideTransfer e (.brx f) (regTarget f e) (f.mod.getLsbD 7) true (fun t s => s.jump e t))

/-- A call: the link register, the depth and the transfer, which pops no frame (R144). -/
def State.callTo (s : State) (e : Iss) (link : BitVec 8) (t : Word64) : State :=
  let ret := ptrWithOff e.pc (ptrOff e.pc + 8)
  (s.onGroup e.core e.slot (fun g => g.writeUni link e.act ret)).goTo e.core e.slot e.prec
    { e.q.place.atHeader t with depth := e.q.place.depth + 1 }

/-- CALL (R144). -/
def execCall (f : FmtJ) (s : State) : Host.Outcome State Fault Refusal :=
  s.issue (.call f) f.guard always always (fun e s => s.decideTransfer e (.call f) (jumpOf f e) false false (fun t s => s.callTo e f.l t))

/-- CALLX (R144). -/
def execCallx (f : FmtA) (s : State) : Host.Outcome State Fault Refusal :=
  s.issue (.callx f) f.guard always always (fun e s => s.decideTransfer e (.callx f) (regTarget f e) false false (fun t s => s.callTo e f.d t))

/-- Place after a RET to a target: the frames of the call depth go, and the depth falls (R144). -/
def Place.returned (p : Place) (t : Word64) : Place :=
  { p.atHeader t with frames := p.frames.dropWhile (fun f => f.depth == p.depth), depth := p.depth - 1 }

/-- RET (R144). -/
def execRet (f : FmtA) (s : State) : Host.Outcome State Fault Refusal :=
  s.issue (.ret f) f.guard always always (fun e s =>
    s.decideTransfer e (.ret f) (regTarget f e) false false (fun t s => s.goTo e.core e.slot e.prec (e.q.place.returned t)))

/-! ### Loops (R145, R148) -/

/-- LOOP and LOOPI with a count (R145), in the order of R154: the start and the exit must be headers. -/
def State.enterLoop (s : State) (e : Iss) (n : Word32) (exit : Word64 × Bool) : State :=
  let start := nextWord e.pc
  let (x, s) := s.checkTarget e.core e.g.ctx (start, false)
  let (y, s) := s.checkTarget e.core e.g.ctx exit
  let found := [(start, e.act, x), (exit.1, e.act, y)]
  if 4 ≤ e.q.place.frames.length ∨ x = .whole 1 ∨ y = .whole 1 then s.illegal e
  else
    match s.targetsFirst e found with
    | some t => t
    | none =>
      if e.act ≠ e.q.lanes then s.uniformity e (fun _ => exit)
      else
        match s.targetsLast e found with
        | some t => t
        | none =>
          if n = 0 then s.jump e exit.1
          else
            let frame : Frame := ⟨n, start, exit.1, e.q.place.depth⟩
            s.goTo e.core e.slot e.prec { e.q.place.atHeader start with frames := frame :: e.q.place.frames }

/-- LOOP (R145). -/
def execLoop (f : FmtJ) (s : State) : Host.Outcome State Fault Refusal :=
  s.issue (.loop f) f.guard always always (fun e s => s.enterLoop e ((e.g.read f.a 1 0).setWidth 32) (jumpTarget e.pc f.off))

/-- LOOPI (R145). -/
def execLoopi (f : FmtJ) (s : State) : Host.Outcome State Fault Refusal :=
  s.issue (.loopi f) f.guard always always (fun e s => s.enterLoop e (f.l.zeroExtend 32) (jumpTarget e.pc f.off))

/-- Top frames at the call depth. -/
def Place.framesHere (p : Place) : Nat := (p.frames.takeWhile (fun f => f.depth == p.depth)).length

/-- Exit of the L-th frame from the top. -/
def Place.exitOf (p : Place) (n : Nat) : Word64 := ((p.frames.drop (n - 1)).head?.map Frame.exit).getD 0

/-- LBRK (R148). -/
def execLbrk (f : FmtJ) (s : State) : Host.Outcome State Fault Refusal :=
  s.issue (.lbrk f) f.guard always (fun e _ => f.l.toNat ≤ e.q.place.framesHere) (fun e s =>
    let t := e.q.place.exitOf f.l.toNat
    s.decideTransfer e (.lbrk f) (fun _ => (t, false)) false false (fun t s =>
      s.goTo e.core e.slot e.prec
        (({ e.q.place with frames := e.q.place.frames.drop f.l.toNat } : Place).transfer t)))

/-! ### Threads that begin and end (R149–R152) -/

/-- The place of a thread that starts at an entry. -/
def Place.entry (t : Word64) : Place := ⟨t, t, 0, [], 0, [], false⟩

/-- A bundle of SPAWN or WINNOW (R246). -/
def threadBundle (e : Iss) (kind : BundleKind) (t : Word64) (first n : Nat) (gen : Nat → Word64) : Bundle :=
  { pres := e.act, left := e.act, kind := kind, role := e.g.role, team := e.g.team, place := Place.entry t, vlive := 0, slive := 0,
    gens := (lanesOf e.act).map (fun l => (l, gen l)),
    cols := (List.range n).map (fun k => (k, (lanesOf e.act).map (fun l => (l, e.g.vreg (first + k) l)))),
    sregs := [], pins := [] }

/-- Put a bundle into the barn and file its lanes, each under its own key. -/
def State.fileKeyed (s : State) (core : Nat) (b : Bundle) (key : Nat → BinKey) (timer : Nat) : State :=
  let (n, s) := s.holdBundle core b
  s.fileRefs core timer ((lanesOf b.pres).map (fun l => (⟨n, l⟩, key l)))

/-- File a bundle when the barn has room for all of it; otherwise park (R149, R245). -/
def State.fileThreads (s : State) (e : Iss) (b : Bundle) (key : Nat → BinKey) (k : State → State) : State :=
  if (s.core e.core).barnRoom (laneCount b.pres) (bundleLines b.cols.length 0) then
    let s := k (s.fileKeyed e.core b key (s.binTimer e.g.launch))
    { s with agenda := s.agenda ++ (s.core e.core).launchEvents e.core }
  else s.spillWait e.core e.slot e.prec (.room (laneCount b.pres))

/-- The bin key of a thread. -/
def threadKey (e : Iss) (kind : BundleKind) (t : Word64) (v : Word32) : BinKey := ⟨kind, Place.entry t, v, e.g.role, e.g.team⟩

/-- SPAWN (R149). -/
def execSpawn (f : FmtJ) (s : State) : Host.Outcome State Fault Refusal :=
  s.issue (.spawn f) f.guard always always (fun e s =>
    let t := jumpTarget e.pc f.off
    s.withTarget e t (fun s =>
      let b := threadBundle e .spawn t.1 f.a.toNat (fieldOf f.l 0 4) (fun l => spawnGen (nextGen (e.g.gen l)))
      s.fileThreads e b (fun _ => threadKey e .spawn t.1 0) (fun s => s.result e (fun g => g.drawGens (lanesOf e.act)))))

/-- End the Active lanes; the rest of the path goes on. -/
def State.endActive (s : State) (e : Iss) : State :=
  let s := s.exitLanes e.core e.slot e.prec e.act
  if e.act = e.q.lanes then s else s.after e

/-- WINNOW (R150). -/
def execWinnow (f : FmtJ) (s : State) : Host.Outcome State Fault Refusal :=
  s.issue (.winnow f) f.guard always always (fun e s =>
    let t := jumpTarget e.pc f.off
    s.withTarget e t (fun s =>
      let b := threadBundle e .winnow t.1 f.a.toNat (fieldOf f.l 0 4 + 1) (fun l => e.g.gen l)
      s.fileThreads e b (fun l => threadKey e .winnow t.1 (e.g.vreg f.a.toNat l)) (fun s => s.endActive e)))

/-- EXIT (R151). -/
def execExit (f : FmtA) (s : State) : Host.Outcome State Fault Refusal :=
  s.issue (.exit f) f.guard always always (fun e s => s.endActive e)

/-- YIELD (R152, R241). -/
def execYield (f : FmtA) (s : State) : Host.Outcome State Fault Refusal :=
  s.issue (.yield f) f.guard always always (fun e s =>
    (s.onCore e.core (fun k => { k with parts := tabPut k.parts e.g.part ⟨none, some e.slot⟩ })).after e)

end Sys2Proof.Machine
end

