-- ==== Sys2Proof/Machine/Chunk.lean ====
section
/-! DEFINITION. Sys2Proof/Machine/Chunk.lean: the arithmetic of the matrix engines: formats and shapes of operands
(R49, R203), chunk sums (R56–R60) and the effect of a disturbed sum (R61, R62). -/

namespace Sys2Proof.Machine

/-! ### Operand formats (R48, R49, R203) -/

/-- Element format of a matrix operand. -/
inductive MatElem where
  /-- INT8 or UINT8. -/
  | int (sgn : Bool)
  /-- A floating-point format. -/
  | flt (f : FloatFmt)
  deriving DecidableEq, Repr

/-- Element format of a TYPE and sub-format. -/
def matElem (ty : BitVec 4) (sub : Nat) : MatElem :=
  if ty = 6 then .int true else if ty = 7 then .int false else if ty = 14 then .flt (fmtOfMx sub) else .flt (fmtOfType ty)

/-- Bits of an element. -/
def MatElem.bits : MatElem → Nat
  | .int _ => 8
  | .flt f => f.width

/-- The format is BF16 or FP16, whose chunks are windowed (R58). -/
def MatElem.wide (m : MatElem) : Bool := m.bits == 16

/-- K of an operation. -/
def MatElem.depth (m : MatElem) : Nat := if m.bits = 16 then 64 else if m.bits = 8 then 128 else 256

/-- Bytes of a row or column. -/
def MatElem.rowBytes (m : MatElem) : Nat := m.depth * m.bits / 8

/-- Products of a chunk (R56). -/
def MatElem.chunkLen (m : MatElem) : Nat := if m.wide then 16 else 32

/-- Blocks of A consumed a cycle. -/
def MatElem.perCycle (m : MatElem) : Nat := if m.bits = 16 then 1 else if m.bits = 8 then 2 else 4

/-- Element k of a row whose bytes are a number (R49). -/
def rowElem (w row k : Nat) : Nat := (row >>> (w * k)) % 2 ^ w

/-- Smallest exponent of a format's significands (R60). -/
def FloatFmt.lowExp (f : FloatFmt) : Int := 1 - (f.bias : Int) - f.mbits

/-! ### Chunk sums -/

/-- A product is NaN or infinite. -/
def FVal.special : FVal → Bool
  | .fin _ _ _ => false
  | _ => true

/-- The accumulator after a chunk with special products (R57). -/
def chunkSpecial (acc : Nat) (ps : List FVal) : Nat :=
  let sp := ps.filter FVal.special
  if sp.any FVal.isNan || (sp.any (fun p => p == .inf true) && sp.any (fun p => p == .inf false)) then f32Fmt.nanCode
  else f32Fmt.round .rne false (FVal.add false (f32Fmt.decode acc) (sp.headD .nan))

/-- Exponent of a finite nonzero value's leading bit. -/
def FVal.leadExp : FVal → Option Int
  | .fin _ m e => if m = 0 then none else some ((log2 m : Int) + e)
  | _ => none

/-- Floor of |p| in units of 2^L, with the sign of p. -/
def FVal.units (l : Int) : FVal → Int
  | .fin neg m e => withSign neg (if l ≤ e then m <<< (e - l).toNat else m >>> (l - e).toNat)
  | _ => 0

/-- Weight of a chunk sum's lowest bit (R60). -/
def chunkLow (wide : Bool) (low : Int) (ps : List FVal) : Int :=
  match wide, ps.filterMap FVal.leadExp with
  | true, x :: xs => xs.foldl max x - 74
  | _, _ => low

/-- A floating-point chunk (R57, R58): `low` is the sum of the formats' smallest exponents, `scale` the exponent of the
block scales, `delta` what an error adds to the chunk sum. -/
def chunkFloat (wide : Bool) (low scale delta : Int) (acc : Nat) (ps : List FVal) : Nat :=
  if ps.any FVal.special then chunkSpecial acc ps
  else
    let l := chunkLow wide low ps
    let t := sumInt (ps.map (FVal.units l)) + delta
    if t = 0 then acc
    else f32Fmt.round .rne false (FVal.add false (f32Fmt.decode acc) (.fin (t < 0) t.natAbs (l + scale)))

/-- An INT8 chunk (R58). -/
def chunkInt (sat : Bool) (delta : Int) (acc : Nat) (ps : List Int) : Nat :=
  fitBits 32 true sat (signedOf 32 acc + (sumInt ps + delta))

/-- One chunk of an element: codes of the A row and B column that are not omitted, and the two block scales. -/
def chunk (m : MatElem) (sat : Bool) (sa sb : Nat) (delta : Int) (acc : Nat) (ab : List (Nat × Nat)) : Nat :=
  match m with
  | .int sgn =>
    let v (c : Nat) : Int := if sgn then signedOf 8 c else c
    chunkInt sat delta acc (ab.map (fun x => v x.1 * v x.2))
  | .flt f =>
    if sa = 0xFF ∨ sb = 0xFF then f32Fmt.nanCode
    else chunkFloat m.wide (2 * f.lowExp) ((sa : Int) + sb - 254) delta acc (ab.map (fun x => FVal.mul (f.decode x.1) (f.decode x.2)))

/-! ### Disturbed sums (R61, R62, R275) -/

/-- What the errors of one chunk add to the T that is used, and the event that the chunk's check raises: whether it is
corrected. One T is compared with Q, so the errors count together, and a sum that is a multiple of 127 is not seen. A retry
recomputes T from the same operands: the errors that repeat are in it too (R62). -/
def chunkError (policy : Nat) (us : List ChunkUpset) : Int × Option Bool :=
  let first := sumInt (us.map ChunkUpset.delta)
  let again := sumInt ((us.filter ChunkUpset.persistent).map ChunkUpset.delta)
  if first % 127 = 0 then (first, none)
  else if policy = 2 then (again, some (again % 127 == 0))
  else (first, some false)

/-- Bytes of an element of MEPI's destination type (R211). -/
def epiBytes (ty : BitVec 4) : Nat := if ty = 0 ∨ ty = 8 then 4 else if ty = 9 ∨ ty = 10 then 2 else 1

/-- An element as MEPI writes it (R211). -/
def epiElem (ty : BitVec 4) (mode : Rounding) (sat asInt : Bool) (shift : Int) (v : Word32) : Nat :=
  let x : FVal := if asInt then FVal.ofInt v.toInt else f32Fmt.decode v.toNat
  let y := x.scale shift
  if ty = 0 ∨ ty = 6 then
    let w := if ty = 0 then 32 else 8
    match asInt, y with
    | true, .fin neg m e => fitBits w true sat (FVal.toIntegral mode neg m e)
    | _, _ => y.toInteger w true mode
  else (fmtOfType ty).round mode sat y

end Sys2Proof.Machine
end

