-- ==== Sys2Proof/Machine/LoadStore.lean ====
section
/-! DEFINITION. Sys2Proof/Machine/LoadStore.lean: loads, stores, atomics, cache control, fences and waits on memory
(R157–R175), and the return of their results (R31). -/

namespace Sys2Proof.Machine

/-! ### Issue of an access (R159) -/

/-- What the lanes' checks find. -/
structure Checked where
  /-- Lanes that pass. -/
  ok : List LaneAccess
  /-- Lanes that fault: class and address. -/
  bad : List (Nat × Nat × Word64)
  deriving DecidableEq, Repr

/-- Every register of the word is uniform: the access executes once (R158). -/
def Shape.uniform (x : Shape) : Bool := x.srcs.all (fun r => isUni r.code) && x.dsts.all (fun d => !isV d.code)

/-- The word executes once. -/
def runsOnce (i : Instr) : Bool := ((shapeOf i).map Shape.uniform).getD false

/-- Lanes that execute. -/
def accessLanes (i : Instr) (act : LaneMask) : List Nat := if runsOnce i then [lowestLane act] else lanesOf act

/-- A barrier object (R177) or the reserved bytes of a sync line (R173) refuse the access: the class. -/
def State.refuses (s : State) (e : Iss) (o : MemOp) (p : Word64) : Option Nat :=
  if o.kind = .read then none
  else
    match o.sp with
    | .scratch => if (s.core e.core).barrierIn ((s.core e.core).scratchAddr e.g.team (fieldOf p 0 32)) o.bytes then some 8 else none
    | .onchip => if ptrWindow p = 1 ∧ (s.core (s.targetCore e.g.ctx p)).barrierIn (ptrOff p) o.bytes then some 8 else none
    | .control => if o.init.isNone ∧ 8 < ptrOff p % 128 + o.bytes ∧ (s.syncOf e.core e.g.ctx p).1 then some 4 else none
    | .tensor => none

/-- Who holds the on-chip target of a lane (R266). -/
def State.ownerOf (s : State) (e : Iss) (o : MemOp) (p : Word64) : Nat :=
  if o.sp = .onchip then (s.core (s.targetCore e.g.ctx p)).windowOwner (ptrWindow p) (ptrOff p) else 0

/-- The descriptor with which a lane's access is checked, and completes (R349). -/
def State.checkedDesc (s : State) (e : Iss) (o : MemOp) (p : Word64) : Option DescWord :=
  if o.sp = .control ∨ o.sp = .tensor then (s.lookupDesc e.core e.g.ctx (ptrObj p)).1 else none

/-- Form and check every lane's address (R40–R42, R159). -/
def State.checkLanes (s : State) (e : Iss) (i : Instr) (o : MemOp) (a : BitVec 8) (delta : Int) (data : Nat → BitVec 128) :
    Checked × State :=
  let one (acc : Checked × State) (l : Nat) : Checked × State :=
    let base := e.g.read a (if o.sp = .scratch then 1 else 2) l
    let (p, carried) := formAddress (o.sp = .scratch) base delta
    let (cls, s) := acc.2.checkAddress e.core e.g.ctx e.g.team p carried o.bytes o.bytes o.sp o.kind true
    match cls.or (s.refuses e o p) with
    | some c => ({ acc.1 with bad := acc.1.bad ++ (if runsOnce i then (lanesOf e.act).map (fun k => (k, c, p)) else [(l, c, p)]) }, s)
    | none => ({ acc.1 with ok := acc.1.ok ++ [⟨l, p, data l, s.ownerOf e o p, s.checkedDesc e o p⟩] }, s)
  (accessLanes i e.act).foldl one (⟨[], []⟩, s)

/-- A lane's access marks D EMPTY-LOCAL: scratchpad, the core's own windows, or a hit in L1 of a load of ORDER 0 or SCOPE 0 or
of an atomic at team scope (R31, R160, R166). -/
def State.isNear (s : State) (e : Iss) (o : MemOp) (p : Word64) : Bool :=
  match o.sp with
  | .scratch => true
  | .onchip => s.targetCore e.g.ctx p == e.core
  | .tensor => false
  | .control => !o.atL2 && (o.order == 0 || o.scope == 0) && (s.l1Find e.core e.g.ctx p).isSome

/-- A lane's access is performed within the core: VALUE of a sync line is not (R175). -/
def State.isLocal (s : State) (e : Iss) (o : MemOp) (p : Word64) : Bool :=
  s.isNear e o p && (o.sp != .control || o.order == 0 || match s.l1Find e.core e.g.ctx p with
    | some y => !s.isSync y.pline
    | none => false)

/-- No free record for lanes that fault out of a path that others of its lanes go on with (R256). -/
def State.noSubgroup (s : State) (core slot : Nat) (m : LaneMask) : Bool :=
  match s.group core slot with
  | none => false
  | some g =>
    (g.prec 2).state != .free && (g.prec 3).state != .free &&
      [0, 1, 2, 3].any (fun i => (g.prec i).lanes &&& m != 0 && (g.prec i).lanes &&& ~~~m != 0)

/-- Lanes whose access stays outstanding because their path parks whole where it stands (R256). -/
def State.heldLanes (s : State) (core slot : Nat) (all : Option LaneMask) (fs : List (LaneAccess × PortFault)) : List LaneAccess :=
  let parking := (fs.filter (fun f => f.2.kind.1 = 5 ∨ f.2.kind.1 = 6)).map Prod.fst
  if s.noSubgroup core slot (all.getD (maskOf (parking.map LaneAccess.lane))) then parking else []

/-- The threads for which an access that executes once acts. -/
def allLanes (i : Instr) (act : LaneMask) : Option LaneMask := if runsOnce i then some act else none

/-- Park for the fence of an SC operation (R159, R170). -/
def State.parkFence (s : State) (e : Iss) (scope : Nat) : State :=
  let n := (s.core e.core).nextAcc
  let s := (s.parkIss e 7 (BitVec.ofNat 64 scope)).onPrec e.core e.slot e.prec (fun q => { q with drained := none, fence := n })
  (s.onCore e.core (fun k => { k with nextAcc := n + 1 })).scProgress e.core e.slot

/-- Cycles from issue to the first in which a word may read the result (R194). A result for which no figure is promised takes as
long as the longest that has
one. DESIGN CHOICE (log 176): the spec gives no figure there. -/
def MemOp.latency (o : MemOp) (here : Bool) : Nat :=
  if o.dstRegs.isEmpty then 0
  else
    match o.sp, here, o.kind with
    | .scratch, _, .atomic => 12
    | .scratch, _, _ => if o.bytes = 16 then 10 else 8
    | .tensor, _, _ => 20
    | _, true, .read => 14
    | _, _, _ => 20

/-- Perform an access at issue. -/
def State.performNow (s : State) (e : Iss) (i : Instr) (o : MemOp) (ok : List LaneAccess) : State :=
  let (r, s) := s.performLanes e.core e.g.ctx e.slot e.g.team o ok
  let parked := s.heldLanes e.core e.slot (allLanes i e.act) r.faults
  let held := parked ++ r.waits
  let s := if o.kind = .write ∧ held.isEmpty then s
    else s.addAccess e.core ⟨e.slot, e.prec, e.g.ctx, i, e.q.place, held, held.isEmpty, r.results, !parked.isEmpty, s.clockOf e.core + o.latency true⟩
  (s.after e).raisePort e.core e.slot e.q.place (allLanes i e.act) r.faults

/-- Lanes that fault at issue would park with no record free for them: their path parks whole at the word, which none of its
lanes performs, and reissues it (R254, R256). -/
def Iss.parksWhole (e : Iss) (s : State) (bad : List (Nat × Nat × Word64)) : Bool :=
  let stays := e.q.lanes &&& ~~~maskOf (bad.map Prod.fst) != 0
  let free := ([2, 3].filter (fun j => (e.g.prec j).state == .free)).length
  (s.trapBlock e.g.launch == 0 || e.q.trap.isSome) && free + (if stays then 0 else 1) < (laneClasses bad).length

/-- Issue an access: check, mark D, perform it now when it is local and nothing earlier of the group, or of the core in the
on-chip map (R267), is pending, or leave it outstanding. -/
def State.memIssue (s : State) (e : Iss) (i : Instr) (o : MemOp) (a : BitVec 8) (delta : Int) (data : Nat → BitVec 128) : State :=
  if o.order = 3 ∧ e.q.answer = none then s.parkFence e o.scope
  else
    let (c, s) := s.checkLanes e i o a delta data
    if e.parksWhole s c.bad then s.raiseLanes e c.bad
    else if c.ok.isEmpty then (s.after e).raiseLanes e c.bad
    else
      let near := c.ok.all (fun l => s.isNear e o l.ptr)
      let s := s.onGroup e.core e.slot (fun g =>
        o.dstRegs.foldl (fun g r => g.setFe r (if near then .emptyLocal else .emptyRemote)) g)
      let now := c.ok.all (fun l => s.isLocal e o l.ptr) && !(s.core e.core).accessPending e.slot &&
        !(o.sp == .onchip && (s.core e.core).crossPending)
      let s := if now then s.performNow e i o c.ok
        else (s.addAccess e.core ⟨e.slot, e.prec, e.g.ctx, i, e.q.place, c.ok, false, [], false, s.clockOf e.core + o.latency near⟩).after e
      s.raiseLanes e c.bad

/-- The access of a load, store or atomic. -/
def State.memInstr (s : State) (i : Instr) (f : FmtM) (scale : Nat) (data : Iss → Nat → BitVec 128) : Host.Outcome State Fault Refusal :=
  match memOpOf i with
  | some o => s.issue i f.guard always always (fun e s => s.memIssue e i o f.a (f.off.toInt * (scale : Int)) (data e))
  | none => noIssuer

/-- Data a store takes from B. -/
def storeData (f : FmtM) (e : Iss) (lane : Nat) : BitVec 128 :=
  if f.size = 6 then e.g.read128 f.b lane else (e.g.read f.b (sizeRegs f.size) lane).zeroExtend 128

/-- Operands an atomic takes from B (R165). -/
def atomData (f : FmtM) (e : Iss) (lane : Nat) : BitVec 128 :=
  if f.size = 1 ∧ atomBytes f = 8 then
    if isS f.b then ((e.g.read (f.b + 1) 2 lane).zeroExtend 128 <<< 64) ||| (e.g.read f.b 2 lane).zeroExtend 128
    else e.g.read128 f.b lane
  else (e.g.read f.b (atomRegsB f) lane).zeroExtend 128

/-- No data. -/
def noData (_ : Iss) (_ : Nat) : BitVec 128 := 0

/-- LDC (R159). -/
def execLdc (f : FmtM) (s : State) : Host.Outcome State Fault Refusal := s.memInstr (.ldc f) f (sizeBytes f.size) noData
/-- STC (R159). -/
def execStc (f : FmtM) (s : State) : Host.Outcome State Fault Refusal := s.memInstr (.stc f) f (sizeBytes f.size) (storeData f)
/-- LDS (R159). -/
def execLds (f : FmtM) (s : State) : Host.Outcome State Fault Refusal := s.memInstr (.lds f) f (sizeBytes f.size) noData
/-- STS (R159). -/
def execSts (f : FmtM) (s : State) : Host.Outcome State Fault Refusal := s.memInstr (.sts f) f (sizeBytes f.size) (storeData f)
/-- LDM (R159). -/
def execLdm (f : FmtM) (s : State) : Host.Outcome State Fault Refusal := s.memInstr (.ldm f) f (sizeBytes f.size) noData
/-- STM (R159). -/
def execStm (f : FmtM) (s : State) : Host.Outcome State Fault Refusal := s.memInstr (.stm f) f (sizeBytes f.size) (storeData f)
/-- LDW (R161). -/
def execLdw (f : FmtM) (s : State) : Host.Outcome State Fault Refusal := s.memInstr (.ldw f) f (sizeBytes f.size) noData
/-- STW (R161). -/
def execStw (f : FmtM) (s : State) : Host.Outcome State Fault Refusal := s.memInstr (.stw f) f (sizeBytes f.size) (storeData f)
/-- ATC (R166). -/
def execAtc (f : FmtM) (s : State) : Host.Outcome State Fault Refusal := s.memInstr (.atc f) f (atomBytes f) (atomData f)
/-- ATS (R166). -/
def execAts (f : FmtM) (s : State) : Host.Outcome State Fault Refusal := s.memInstr (.ats f) f (atomBytes f) (atomData f)
/-- ATT (R166). -/
def execAtt (f : FmtM) (s : State) : Host.Outcome State Fault Refusal := s.memInstr (.att f) f (atomBytes f) (atomData f)

/-- SLINIT (R174). -/
def execSlinit (f : FmtM) (s : State) : Host.Outcome State Fault Refusal :=
  s.memInstr (.slinit f) f 128 (fun e l => if f.mod = 1 then 0 else (e.g.read f.b 2 l).zeroExtend 128)

/-! ### Results that return (R31, R33) -/

/-- Later accesses that the performing of one unblocks are due; releases and acquires in their turn of a cycle. -/
def Core.unblocked (before after : Core) (core now : Nat) : List Instr :=
  (after.accs.filter (fun a => decide (a.2.due ≤ now) && !a.2.performed && a.2.turn == 0 && before.accessBlocked a.1 a.2 && !after.accessBlocked a.1 a.2)).map
    (fun a => .longLatencyResult core a.1)

/-- Deliver a performed access: D is written, its registers are FULL, and the access is gone. -/
def State.deliverAccess (s : State) (core id : Nat) (a : Access) : State :=
  let s := s.onCore core (fun k => { k with accs := tabDel k.accs id })
  match memOpOf a.instr with
  | some o => ((s.onGroup core a.slot (fun g => g.deliver o a.results)).fillRegs core a.slot o.dstRegs).progress core a.slot
  | none =>
    match a.instr with
    | .qpop f =>
      ((s.onGroup core a.slot (fun g => g.setSreg (f.d.toNat - 0xC0) (((a.results.head?.map Prod.snd).getD 0).setWidth 64))).fillRegs
        core a.slot [f.d.toNat]).progress core a.slot
    | _ => s

/-- Lanes of an ATT whose address lies on another live module: each asks there once (R385). -/
def State.askRemote (s : State) (core id : Nat) (a : Access) (o : MemOp) : List LaneAccess × State :=
  if o.sp ≠ .tensor then ([], s)
  else
    a.lanes.foldl (fun (acc : List LaneAccess × State) l =>
      let s := acc.2
      if s.lower.any (fun r => r.2.core == core && r.2.kind == .att id l.lane) then (acc.1 ++ [l], s)
      else
        match s.port core a.ctx l.ptr .atomic l.descs with
        | .error _ => acc
        | .ok (t, s) =>
          if paModule t.pa = s.moduleId.toNat ∨ !s.isLive (paModule t.pa) then (acc.1, s)
          else
            (acc.1 ++ [l], { s with
              nextTag := s.nextTag + 1
              lower := tabPut s.lower s.nextTag
                ⟨core, a.ctx, paModule t.pa, o.bytes, false, t.pa, byteMask (t.pa % 128) o.bytes, l.ptr, .att id l.lane, none, 0⟩ })) ([], s)

/-- The request that a lane of an LDC or ATC makes of its line's home: the home, the line at which it is asked, and the operation; none
where the core's L1 or its die's L2 serves it, or a home of this module (R385). -/
def State.homeAsk (s : State) (core x : Nat) (o : MemOp) (l : LaneAccess) : Option (HomeRef × Nat × Nat) × State :=
  if o.sp ≠ .control ∨ o.kind = .write then (none, s)
  else
    let (sync, s) := s.syncOf core x l.ptr l.descs
    let atL2 := o.atL2 || (if o.kind = .read then
        o.order != 0 && (o.scope != 0 || (sync && decide (ptrOff l.ptr % 128 + o.bytes ≤ 8)))
      else o.scope != 0 || sync)
    if !atL2 && (s.l1Find core x l.ptr).isSome then (none, s)
    else
      match s.port core x l.ptr o.kind l.descs with
      | .error _ => (none, s)
      | .ok (t, s) =>
        let r := s.homeRef t.ref
        let owns := atL2 && o.kind == .atomic
        let m := if atL2 && !sync then byteMask (ptrOff l.ptr % 128) o.bytes else BitVec.allOnes 128
        let hit := match s.agentLine (s.coreAgent core) r.line with
          | some y => if owns then y.state == .m || y.state == .e else y.reads m
          | none => false
        match s.homeLine r with
        | .ok h => if hit || paModule (h * 128) == s.moduleId.toNat then (none, s) else (some (r, h, if owns then 8 else 7), s)
        | .error _ => (none, s)

/-- Send a request of a load or atomic to the home of its line (R385, R386). -/
def State.sendUpper (s : State) (e : UpperReq) : State :=
  let s' := s.post (paModule (e.sent * 128)) 3 e.op (s.ctx e.ctx).job.toNat e.ctx e.sent 0
    (agentBytes e.agent ⟨e.line, e.slot⟩ (if e.acquire || e.op == 8 then 1 else 0))
  { s' with upper := tabPut s'.upper s.nextTag e, nextTag := s.nextTag + 1 }

/-- Lanes of an LDC or ATC that miss at their die's L2 and whose home is on another module: each line is asked for once. The lanes
that wait for an answer, those whose request has failed, and the state (R385). -/
def State.askHomes (s : State) (core id : Nat) (a : Access) (o : MemOp) : List LaneAccess × List (LaneAccess × PortFault) × State :=
  a.lanes.foldl (fun (acc : List LaneAccess × List (LaneAccess × PortFault) × State) l =>
    let (ws, fs, s) := acc
    match s.homeAsk core a.ctx o l with
    | (none, s) => (ws, fs, s)
    | (some (r, h, op), s) =>
      match s.upper.find? (fun e => e.2.core == core && e.2.acc == id && e.2.line == r.line) with
      | some (_, e) =>
        match e.answer with
        | none => (ws ++ [l], fs, s)
        | some none => (ws, fs, s)
        | some (some c) => (ws, fs ++ [(l, .cls c 0)], s)
      | none => (ws ++ [l], fs, s.sendUpper ⟨core, id, a.ctx, s.coreAgent core, r.line, r.slot, h, op, o.wide && o.order != 0, none⟩)) ([], [], s)

/-- The requests of an access are done with. -/
def State.closeUpper (s : State) (core id : Nat) : State :=
  { s with upper := s.upper.filter (fun e => e.2.core != core || e.2.acc != id) }

/-- D of an outstanding access is EMPTY-LOCAL and one of its lines is no longer in the L1 (R31). -/
def State.missesNow (s : State) (core : Nat) (a : Access) (o : MemOp) : Bool :=
  decide (core < 512) && o.sp == .control && a.lanes.any (fun l => (s.l1Find core a.ctx l.ptr).isNone) &&
    ((s.group core a.slot).map (fun g => o.dstRegs.any (fun r => g.feOf r == .emptyLocal))).getD false

/-- A miss in L1: D becomes EMPTY-REMOTE, and the request leaves the core (R31, R160, R166). -/
def State.missL1 (s : State) (core id : Nat) (a : Access) (o : MemOp) : State :=
  (s.onGroup core a.slot (fun g => o.dstRegs.foldl (fun g r => g.setFe r .emptyRemote) g)).onCore core (fun k =>
    { k with accs := tabPut k.accs id { a with due := s.clockOf core + o.latency false } })

/-- Perform an outstanding access. DESIGN CHOICE (log 189): where a memory-port fault parks a path whole (R256), the results of its other
lanes are withheld and D stays empty until the held lanes are done; the spec does not say whether they are written meanwhile. -/
def State.performAccess (s : State) (core id : Nat) (a : Access) : State :=
  match memOpOf a.instr with
  | none => s
  | some o =>
    if s.missesNow core a o then s.missL1 core id a o else
    let before := s.core core
    let team := ((s.group core a.slot).map Group.team).getD 0
    let (remote, s) := s.askRemote core id a o
    let (asked, failed, s) := s.askHomes core id a o
    let remote := remote ++ asked
    let (r, s) := s.performLanes core a.ctx a.slot team o (a.lanes.filter (fun l => !remote.contains l && !failed.any (fun f => f.1 == l)))
    let r := { r with faults := failed ++ r.faults }
    let all := if runsOnce a.instr then
        (s.group core a.slot).map (fun g => g.guardMask 0 &&& (g.prec a.prec).lanes) else none
    let parked := s.heldLanes core a.slot all r.faults
    let held := parked ++ remote ++ r.waits
    let a' := { a with results := a.results ++ r.results, lanes := held, performed := held.isEmpty, held := !parked.isEmpty }
    let s := if held.isEmpty then (s.closeUpper core id).deliverAccess core id a'
      else s.onCore core (fun k => { k with accs := tabPut k.accs id a' })
    let s := s.enqueue (before.unblocked (s.core core) core (s.clockOf core))
    s.raisePort core a.slot a.place all r.faults

/-- LONG_LATENCY_RESULT (R31): an outstanding access is performed in its group's order, and its results are written. Of a
context that is away, an access that waits with a parked record waits for the restore. -/
def execLongLatencyResult (core id : Nat) (s : State) : Host.Outcome State Fault Refusal :=
  .next (match tabFind (s.core core).accs id with
    | none => s
    | some a =>
      if a.performed then s.deliverAccess core id a
      else if (s.core core).accessBlocked id a || (512 ≤ core && a.ordered) then s
      else s.performAccess core id a)

/-! ### Cache control (R168) -/

/-- Earlier accesses of the group come first: until then the word issues again. -/
def State.whenDrained (s : State) (e : Iss) (k : State → State) : State :=
  if (s.core e.core).accessPending e.slot then s else k s

/-- One lane's line operation. -/
def State.cctlLine (s : State) (e : Iss) (op : Nat) (p : Word64) : State :=
  let key := l1Key e.g.ctx (ptrLineNo p)
  match op with
  | 0 => s.evictL1 e.core key
  | 1 => s.publish e.core key
  | 4 =>
    match s.l1Line e.core e.g.ctx p .read with
    | .ok (_, s) => s
    | .error _ => s
  | _ =>
    match s.port e.core e.g.ctx p .read with
    | .error _ => s
    | .ok (t, s) =>
      match s.agentRead (s.coreAgent e.core) (s.homeRef t.ref) (BitVec.allOnes 128) (s.ctx e.g.ctx).cos.toNat with
      | .ok (_, s) => s
      | .error _ => s

/-- CCTL on every line of the core's L1. -/
def State.cctlAll (s : State) (core : Nat) (drop : Bool) : State :=
  let s := (s.core core).l1.foldl (fun s y => s.publish core y.1) s
  if drop then s.onCore core (fun k => { k with l1 := [] }) else s

/-- CCTL (R168). -/
def execCctl (f : FmtM) (s : State) : Host.Outcome State Fault Refusal :=
  s.issue (.cctl f) f.guard always always (fun e s => s.whenDrained e (fun s =>
    if f.size = 2 ∨ f.size = 3 then (s.cctlAll e.core (f.size = 2)).after e
    else
      let o : MemOp := ⟨.control, .read, 1, 0, 0, false, 0, none, 0xF8⟩
      let (c, s) := s.checkLanes e (.cctl f) o f.a (f.off.toInt * 128) (fun _ => 0)
      if f.size.toNat < 4 ∧ e.parksWhole s c.bad then s.raiseLanes e c.bad else
      let s := c.ok.foldl (fun s l => s.cctlLine e f.size.toNat l.ptr) s
      if 4 ≤ f.size.toNat then s.after e else (s.after e).raiseLanes e c.bad))

/-! ### Fences and waits (R169–R172) -/

/-- FENCE (R169). -/
def execFence (f : FmtM) (s : State) : Host.Outcome State Fault Refusal :=
  s.issue (.fence f) f.guard always always (fun e s => s.whenDrained e (fun s =>
    (s.fenceCore e.core e.g.ctx f.scope.toNat).after e))

/-- FENCESC (R170). -/
def execFencesc (f : FmtM) (s : State) : Host.Outcome State Fault Refusal :=
  s.issue (.fencesc f) f.guard always always (fun e s =>
    if e.q.answer.isSome then s.after e else s.parkFence e f.scope.toNat)

/-- TFENCE (R171). -/
def execTfence (f : FmtM) (s : State) : Host.Outcome State Fault Refusal :=
  s.issue (.tfence f) f.guard always always (fun e s =>
    if e.q.answer.isSome || !(s.core e.core).tensorPending e.slot then s.after e else s.parkIss e 8 0)

/-- Condition of WAITA. -/
def waitCond (code : Nat) (v b : Nat) : Bool :=
  match code with
  | 0 => v != b | 1 => v == b | 2 => b ≤ v | _ => v < b

/-- A read of WAITA: the value, the physical line, and the line's bytes where it was read at L2. -/
def State.waitRead (s : State) (e : Iss) (o : MemOp) (p : Word64) : Except PortFault (Nat × Nat × Option (Bool × Line) × State) :=
  let (sync, s) := s.syncOf e.core e.g.ctx p
  let value := sync && ptrOff p % 128 + o.bytes ≤ 8
  let field (d : Line) : Nat := lineField d (8 * (ptrOff p % 128)) (8 * o.bytes)
  if 1 ≤ o.scope ∨ value then
    match s.l2Read e.core e.g.ctx p (byteMask (ptrOff p % 128) o.bytes) o.wide (decide (2 ≤ o.order)) .read with
    | .error f => .error f
    | .ok (d, l, s) => .ok (field d, l, some (value, d), s)
  else
    match s.l1Line e.core e.g.ctx p .read with
    | .error f => .error f
    | .ok (y, s) => .ok (field y.data, y.pline, none, s)

/-- WAITA (R172). -/
def execWaita (f : FmtM) (s : State) : Host.Outcome State Fault Refusal :=
  s.issue (.waita f) f.guard always always (fun e s => s.whenDrained e (fun s =>
    let o : MemOp := ⟨.control, .read, sizeBytes f.size, f.order.toNat, f.scope.toNat, false, f.size.toNat, none, f.d⟩
    let (c, s) := s.checkLanes e (.waita f) o f.a 0 (fun _ => 0)
    match c.ok with
    | [] => (s.after e).raiseLanes e c.bad
    | a :: _ =>
      match s.waitRead e o a.ptr with
      | .error .wait => s
      | .error x => (s.after e).raisePort e.core e.slot e.q.place (some e.act) [(a, x)]
      | .ok (v, l, d, s) =>
        if waitCond (fieldOf f.mod 0 2) v (fieldOf (e.g.read f.b 2 a.lane) 0 (8 * o.bytes)) then
          let s := match o.wide, d with
            | true, some (value, d) => s.acquireLine e.core e.g.ctx e.slot value d
            | _, _ => s
          s.result e (fun g => g.writeUni f.d e.act (BitVec.ofNat 64 v))
        else s.park e.core e.slot e.prec 4 a.ptr [BitVec.ofNat 64 l]))

/-! ### Heartbeats (R170, R295) -/

/-- The core's FENCESC and ORDER 3 operations of a scope whose drain and fence ended before a cycle, in issue order: slot and
record (R170, R295). -/
def Core.fencesDone (k : Core) (scope now : Nat) : Table (Nat × Nat) :=
  k.groups.foldl (fun t g =>
    g.2.recs.foldl (fun t q =>
      match q.2.state, q.2.reason, q.2.drained with
      | .parked, 7, some d => if q.2.obj = BitVec.ofNat 64 scope ∧ d < now ∧ q.2.answer = none then tabPut t q.2.fence (g.1, q.1) else t
      | _, _, _ => t) t) []

/-- They take their place at the tick, in ascending core, each core's in issue order. -/
def State.tickWakes (s : State) (scope tick : Nat) : State :=
  s.cores.foldl (fun s c =>
    (c.2.fencesDone scope s.time).foldl (fun s r =>
      let n := tabGet 0 (s.core c.1).scSeq (tick * 4 + scope)
      (s.onCore c.1 (fun k => { k with scSeq := tabPut k.scSeq (tick * 4 + scope) (n + 1) })).wakeWith c.1 r.2.1 r.2.2 (BitVec.ofNat 64 n)) s) s

/-- Sequence counts of earlier ticks are past. -/
def State.dropTicks (s : State) (scope : Nat) : State :=
  { s with cores := s.cores.map (fun c => (c.1, { c.2 with scSeq := c.2.scSeq.filter (fun e => e.1 % 4 != scope) })) }

/-- DEVICE_TICK (R170). -/
def execDeviceTick (s : State) : Host.Outcome State Fault Refusal :=
  let s := { (s.dropTicks 2) with deviceTicks := s.deviceTicks + 1 }
  .next (s.tickWakes 2 s.deviceTicks.toNat)

/-- SYSTEM_TICK (R170). -/
def execSystemTick (s : State) : Host.Outcome State Fault Refusal :=
  let s := { (s.dropTicks 3) with systemTicks := s.systemTicks + 1 }
  .next (s.tickWakes 3 s.systemTicks.toNat)

end Sys2Proof.Machine
end

