-- ==== Sys2Proof/Machine/Barrier.lean ====
section
/-! DEFINITION. Sys2Proof/Machine/Barrier.lean: barrier objects: their 16 bytes, their marks, and the one update through
which every change goes (R176–R178, R197). -/

namespace Sys2Proof.Machine

/-- The fields of a barrier object (R176); VALID is the core's mark. -/
structure BarObj where
  /-- PROM -/
  prom : Nat
  /-- LAND -/
  land : Nat
  /-- ARR -/
  arr : Nat
  /-- TGT -/
  tgt : Nat
  /-- PHN -/
  phn : Nat
  /-- PEND -/
  pend : Nat
  /-- TEAM -/
  team : Nat
  /-- ERR -/
  err : Bool
  deriving DecidableEq, Repr

/-- The fields in 16 bytes. -/
def BarObj.ofNat (n : Nat) : BarObj :=
  let x : BitVec 128 := BitVec.ofNat 128 n
  ⟨fieldOf x 0 32, fieldOf x 32 32, fieldOf x 64 11, fieldOf x 75 11, fieldOf x 86 3, fieldOf x 89 16, fieldOf x 105 6, x.getLsbD 126⟩

/-- The 16 bytes of an object, VALID set. -/
def BarObj.toNat (b : BarObj) : Nat :=
  b.prom % 2 ^ 32 + b.land % 2 ^ 32 * 2 ^ 32 + b.arr % 2 ^ 11 * 2 ^ 64 + b.tgt % 2 ^ 11 * 2 ^ 75 + b.phn % 8 * 2 ^ 86 +
    b.pend % 2 ^ 16 * 2 ^ 89 + b.team % 64 * 2 ^ 105 + (if b.err then 2 ^ 126 else 0) + 2 ^ 127

/-- Whether an object stands at a core address. -/
def Core.barMarked (k : Core) (a : Nat) : Bool := tabGet false k.marks (a / 16)

/-- The object at a core address. -/
def Core.bar (k : Core) (a : Nat) : BarObj := BarObj.ofNat (leNat (k.scratchRead a 16))

/-- Write an object. -/
def Core.setBar (k : Core) (a : Nat) (b : BarObj) : Core := k.scratchWrite a (leBytes 16 b.toNat)

/-- Set or clear the mark of 16 bytes. -/
def Core.markBar (k : Core) (a : Nat) (v : Bool) : Core := { k with marks := tabSet false k.marks (a / 16) v }

/-- Update of R178: none where it refuses. Whether the phase ends is decided on the sum of the cycle's updates. -/
def Core.barUpdate (k : Core) (a dprom dland darr : Nat) : Option Core :=
  let b := k.bar a
  let b' := { b with prom := b.prom + dprom, land := b.land + dland, arr := b.arr + darr }
  if 2 ^ 32 ≤ b'.prom ∨ 2 ^ 32 ≤ b'.land ∨ b'.tgt < b'.arr then none
  else
    let k := k.setBar a b'
    some { k with barDue := if k.barDue.contains a then k.barDue else k.barDue ++ [a] }

/-- Records of a team parked in BWAIT on an offset. -/
def PathRec.inBwait (q : PathRec) (off : Nat) : Bool :=
  q.state == .parked && q.reason == 2 && q.arrive.isNone && q.obj == BitVec.ofNat 64 off

/-- The end of a cycle's updates of an object: the phase flips when both sides agree and every arrival is made. -/
def State.barSettle (s : State) (core a : Nat) : State :=
  let k := s.core core
  let b := k.bar a
  if k.barMarked a && b.arr == b.tgt && b.land == b.prom then
    let s := s.setCore core (k.setBar a { b with phn := (b.phn + 1) % 8, prom := 0, land := 0, arr := 0 })
    let off := a - ((tabFind k.teams b.team).map (fun t => t.base * 128)).getD 0
    s.wakeWhere core (fun _ g q => g.team == b.team && q.inBwait off)
  else s

/-- Settle every object that a core updated. -/
def State.barSettleAll (s : State) (core : Nat) : State :=
  let due := (s.core core).barDue
  due.foldl (fun s a => s.barSettle core a) (s.onCore core (fun k => { k with barDue := [] }))

/-- An operand that names a barrier object by its offset (R179, R197): the fault class, or its core address. -/
def State.barOperand (s : State) (core team : Nat) (off : Word64) (needValid : Bool) : Except Nat Nat :=
  let k := s.core core
  match tabFind k.teams team with
  | none => .error 3
  | some t =>
    if off.toNat % 16 ≠ 0 ∨ t.bytes < off.toNat + 16 then .error 3
    else
      let a := t.base * 128 + off.toNat
      if needValid && !k.barMarked a then .error 8 else .ok a

/-- PEND at which an acceptance waits (R178). -/
def pendMax : Nat := 65535

/-- A named object has room for one more transfer. -/
def Core.pendRoom (k : Core) : Option Nat → Bool
  | none => true
  | some a => !k.barMarked a || (k.bar a).pend < pendMax

/-- Acceptance of a transfer that names an object: PEND rises. -/
def Core.barAccept (k : Core) : Option Nat → Core
  | none => k
  | some a => if k.barMarked a then let b := k.bar a; k.setBar a { b with pend := b.pend + 1 } else k

/-- Completion of a transfer (R178): PEND falls, n bytes are credited, an error sets ERR. False when the credit is
refused; the object then has ERR set. An object whose team has gone takes nothing. -/
def State.barComplete (s : State) (core : Nat) (bar : Option Nat) (n : Nat) (err : Bool) : State × Bool :=
  match bar with
  | none => (s, true)
  | some a =>
    let k := s.core core
    if !k.barMarked a then (s, true)
    else
      let b := k.bar a
      let k := k.setBar a { b with pend := b.pend - 1, err := b.err || err }
      let (k, ok) := match k.barUpdate a 0 n 0 with
        | some k => (k, true)
        | none => (k.setBar a { (k.bar a) with err := true }, false)
      -- PEND has fallen: records in engine acceptance may go on (R253)
      ((s.setCore core k).wakeReason core 10, ok)

end Sys2Proof.Machine
end

