-- ==== Sys2Proof/Machine/Sync.lean ====
section
/-! DEFINITION. Sys2Proof/Machine/Sync.lean: barriers, queues, convergence counts and accumulator tiles (R176–R190). -/

namespace Sys2Proof.Machine

/-! ### Barrier objects (R179–R181) -/

/-- A uniform operand. -/
def Iss.uni (e : Iss) (c : BitVec 8) : Word64 := e.g.read c 2 0

/-- A trapping fault of every Active lane with the offset as its address. -/
def State.syncFault (s : State) (e : Iss) (cls : Nat) (off : Word64) : State := s.lanesFault e e.act cls off 0 0

/-- The object that A names; a fault where it names none (R177, R179). -/
def State.withBar (s : State) (e : Iss) (f : FmtA) (needValid : Bool) (k : Nat → State) : State :=
  match s.barOperand e.core e.g.team (e.uni f.a) needValid with
  | .error c => s.syncFault e c (e.uni f.a)
  | .ok a => k a

/-- An object in use: transfers pending, or records parked on it in BWAIT (R180). -/
def Core.barBusy (k : Core) (team a : Nat) (off : Word64) : Bool :=
  k.barMarked a && ((k.bar a).pend != 0 ||
    k.groups.any (fun g => g.2.team == team && g.2.recs.any (fun q => q.2.inBwait off.toNat)))

/-- An illegal case that rests on a uniform operand's value: it comes before an empty-register trap of another source, and of
a register that is not FULL there is no value to decide on (R11). -/
def Iss.valueOk (e : Iss) (c : BitVec 8) (ok : Word64 → Bool) : Bool := (operandRegs c 2).any (fun r => e.g.feOf r != .full) || ok (e.uni c)

/-- BINIT's target is 1–1,024 (R180). -/
def binitTarget (f : FmtA) (e : Iss) (_ : State) : Bool := f.mod.getLsbD 7 || e.valueOk f.b (fun v => v != 0 && v.toNat ≤ 1024)

/-- BINIT (R180). -/
def execBinit (f : FmtA) (s : State) : Host.Outcome State Fault Refusal :=
  s.issue (.binit f) f.guard always (binitTarget f) (fun e s => s.whenDrained e (fun s =>
    let free := f.mod.getLsbD 7
    let tgt := (e.uni f.b).toNat
    s.withBar e f false (fun a =>
      let k := s.core e.core
      if k.barBusy e.g.team a (e.uni f.a) then s.syncFault e 8 (e.uni f.a)
      else if free then (s.setCore e.core ((k.markBar a false).scratchWrite a (List.replicate 16 0))).after e
      else (s.setCore e.core ((k.markBar a true).setBar a ⟨0, 0, 0, tgt, 0, 0, e.g.team, false⟩)).after e)))

/-- BEXP (R180). -/
def execBexp (f : FmtA) (s : State) : Host.Outcome State Fault Refusal :=
  s.issue (.bexp f) f.guard always always (fun e s => s.whenDrained e (fun s =>
    s.withBar e f true (fun a =>
      match (s.core e.core).barUpdate a (fieldOf (e.uni f.b) 0 32) 0 0 with
      | none => s.syncFault e 8 (e.uni f.a)
      | some k => (s.setCore e.core k).after e)))

/-- BARV (R180). -/
def execBarv (f : FmtA) (s : State) : Host.Outcome State Fault Refusal :=
  s.issue (.barv f) f.guard always always (fun e s => s.whenDrained e (fun s =>
    s.withBar e f true (fun a =>
      match (s.core e.core).barUpdate a (fieldOf (e.uni f.b) 0 32) 0 (laneCount e.act) with
      | none => s.syncFault e 8 (e.uni f.a)
      | some k =>
        let phn := ((s.core e.core).bar a).phn
        (s.setCore e.core k).result e (fun g => g.writeUni f.d e.act (BitVec.ofNat 64 phn)))))

/-- The phase that B names is over. -/
def Core.phasePast (k : Core) (a : Nat) (b : Word64) : Bool := (k.bar a).phn != fieldOf b 0 3

/-- BWAIT (R181). -/
def execBwait (f : FmtA) (s : State) : Host.Outcome State Fault Refusal :=
  s.issue (.bwait f) f.guard always always (fun e s => s.whenDrained e (fun s =>
    s.withBar e f true (fun a =>
      if (s.core e.core).phasePast a (e.uni f.b) then s.after e else s.parkIss e 2 (e.uni f.a))))

/-- BTEST (R181). -/
def execBtest (f : FmtA) (s : State) : Host.Outcome State Fault Refusal :=
  s.issue (.btest f) f.guard always always (fun e s => s.whenDrained e (fun s =>
    s.withBar e f true (fun a =>
      s.result e (fun g => g.writeUni f.d e.act (if (s.core e.core).phasePast a (e.uni f.b) then 1 else 0)))))

/-! ### Team and grid barriers (R182, R183) -/

/-- The launch of a group. -/
def State.launchOf (s : State) (g : Group) : Option Launch := tabFind s.launches g.launch

/-- Every lane that a group holds has arrived with a mask, 16 for GBAR. -/
def Group.arrivedAt (g : Group) (m : Nat) : Bool :=
  g.recs.all (fun q => q.2.state == .free || (q.2.arrive == some m && q.2.answer.isNone))

/-- A role is named by a mask; 0 names all. -/
def maskNames (m role : Nat) : Bool := m == 0 || m == 16 || m.testBit role

/-- Every group of a team in the named roles has arrived or ended. -/
def Core.teamArrived (k : Core) (team m : Nat) : Bool :=
  k.groups.all (fun g => g.2.team != team || g.2.ended || !maskNames m g.2.role || g.2.arrivedAt m)

/-- Records that wait at a barrier. -/
def PathRec.waitsAt (q : PathRec) (m : Nat) : Bool :=
  q.state == .parked && q.reason == 2 && q.arrive == some m && q.answer.isNone

/-- Masks at which records of a team wait. -/
def Core.masksAt (k : Core) (team : Nat) : List Nat :=
  (k.groups.flatMap (fun g => if g.2.team = team then
    g.2.recs.filterMap (fun q => if q.2.state = .parked ∧ q.2.reason = 2 ∧ q.2.answer.isNone then q.2.arrive else none) else [])).eraseDups

/-- Release the records of a core that wait at a barrier. -/
def State.releaseAt (s : State) (core m : Nat) (mine : Group → Bool) : State :=
  (s.core core).groups.foldl (fun s g =>
    g.2.recs.foldl (fun s q => if mine g.2 && q.2.waitsAt m then s.wakeWith core g.1 q.1 0 else s) s) s

/-- Team barriers of a team that are complete (R182). -/
def State.teamBarriers (s : State) (core team : Nat) : State :=
  ((s.core core).masksAt team).foldl (fun s m =>
    if m ≠ 16 ∧ (s.core core).teamArrived team m then s.releaseAt core m (fun g => g.team == team) else s) s

/-- Some record of a launch waits at GBAR. -/
def State.anyAtGbar (s : State) (launch : Nat) : Bool :=
  s.cores.any (fun c => c.2.groups.any (fun g => g.2.launch == launch && g.2.recs.any (fun q => q.2.waitsAt 16)))

/-- The grid barrier of a launch completes when every team of the grid has arrived or exited (R183). -/
def State.gridBarrier (s : State) (launch : Nat) : State :=
  match tabFind s.launches launch with
  | none => s
  | some l =>
    if l.gbar && l.state == .admitted && s.anyAtGbar launch &&
        s.cores.all (fun c => c.2.teams.all (fun t => t.2.launch != launch || c.2.teamArrived t.1 16)) then
      s.cores.foldl (fun s c => s.releaseAt c.1 16 (fun g => g.launch == launch)) s
    else s

/-- Barriers that have become complete: looked at once a cycle, since groups and lanes that end may complete them. -/
def State.barriersDue (s : State) : State :=
  let s := s.cores.foldl (fun s c => c.2.teams.foldl (fun s t => s.teamBarriers c.1 t.1) s) s
  s.launches.foldl (fun s l => s.gridBarrier l.1) s

/-- The issuing record arrives at a barrier and parks until it completes. -/
def State.arrive (s : State) (e : Iss) (m : Nat) : State :=
  (s.parkIss e 2 0).onPrec e.core e.slot e.prec (fun q => { q with arrive := some m })

/-- The roles that TBAR names are present (R182). -/
def tbarRoles (f : FmtA) (e : Iss) (s : State) : Bool :=
  fieldOf f.mod 7 4 < 2 ^ (((s.launchOf e.g).map (fun l => l.roles.length)).getD 0)

/-- TBAR (R182). -/
def execTbar (f : FmtA) (s : State) : Host.Outcome State Fault Refusal :=
  s.issue (.tbar f) f.guard (tbarRoles f) always (fun e s =>
    if e.q.answer.isSome then s.after e else s.whenDrained e (fun s => s.arrive e (fieldOf f.mod 7 4)))

/-- The launch has the GBAR flag. -/
def gbarFlag (e : Iss) (s : State) : Bool := ((s.launchOf e.g).map Launch.gbar).getD false

/-- GBAR (R183): a release at device scope on arrival, an acquire when it completes. -/
def execGbar (f : FmtA) (s : State) : Host.Outcome State Fault Refusal :=
  s.issue (.gbar f) f.guard gbarFlag always (fun e s =>
    if e.q.answer.isSome then (s.invalidateL1 e.core e.g.ctx).after e
    else s.whenDrained e (fun s => (s.releaseCore e.core e.g.ctx).arrive e 16))

/-! ### Queues (R184–R187) -/

/-- Number of the queue or convergence register that a word names. -/
def regNo (f : FmtA) : Nat := fieldOf f.mod 7 4

/-- A team's queue register. -/
def Team.queue (t : Team) (n : Nat) : QueueReg := tabGet QueueReg.blank t.queues n

/-- Queue register of the issuing team. -/
def State.queueReg (s : State) (e : Iss) (n : Nat) : QueueReg :=
  ((tabFind (s.core e.core).teams e.g.team).map (fun t => t.queue n)).getD QueueReg.blank

/-- Replace a queue register of the issuing team. -/
def State.setQueueReg (s : State) (e : Iss) (n : Nat) (q : QueueReg) : State :=
  s.onCore e.core (fun k =>
    { k with teams := tabMod k.teams e.g.team (fun t => { t with queues := tabSet QueueReg.blank t.queues n q }) })

/-- The first record of a list that is still parked on a queue, and the list after it. -/
def State.firstParked (s : State) (core n : Nat) : List (Nat × Nat) → Option (Nat × Nat) × List (Nat × Nat)
  | [] => (none, [])
  | w :: ws =>
    match s.group core w.1 with
    | some g =>
      let q := g.prec w.2
      if q.state = .parked ∧ q.reason = 3 ∧ q.obj = BitVec.ofNat 64 n ∧ !q.woken then (some w, ws) else s.firstParked core n ws
    | none => s.firstParked core n ws

/-- Wake the oldest record parked in QPUSH. -/
def State.wakePusher (s : State) (e : Iss) (n : Nat) : State :=
  let q := s.queueReg e n
  match s.firstParked e.core n q.pushers with
  | (some w, ws) => (s.setQueueReg e n { q with pushers := ws }).wake e.core w.1 w.2
  | (none, ws) => s.setQueueReg e n { q with pushers := ws }

/-- Wake the oldest record parked in QPOP. -/
def State.wakePopper (s : State) (e : Iss) (n : Nat) : State :=
  let q := s.queueReg e n
  match s.firstParked e.core n q.poppers with
  | (some w, ws) => (s.setQueueReg e n { q with poppers := ws }).wake e.core w.1 w.2
  | (none, ws) => s.setQueueReg e n { q with poppers := ws }

/-- Scratchpad bytes of the issuing team. -/
def State.teamBytes (s : State) (e : Iss) : Nat := ((tabFind (s.core e.core).teams e.g.team).map Team.bytes).getD 0

/-- LOGN of a queue of n entries. -/
def queueLog (n : Nat) : Option Nat := [1, 2, 3, 4, 5, 6, 7, 8].find? (fun k => n = 2 ^ k)

/-- QINIT's configuration is legal (R186). -/
def qinitConfig (f : FmtA) (e : Iss) (_ : State) : Bool :=
  e.valueOk f.b (fun c => (queueLog (fieldOf c 0 9)).isSome && fieldOf c 9 3 == 0 && fieldOf c 32 32 == 0)

/-- QINIT (R186). -/
def execQinit (f : FmtA) (s : State) : Host.Outcome State Fault Refusal :=
  s.issue (.qinit f) f.guard always (qinitConfig f) (fun e s => s.whenDrained e (fun s =>
    let c := e.uni f.b
    let n := fieldOf c 0 9
    let base := e.uni f.a
    match queueLog n with
    | none => s.illegal e
    | some logn =>
      if base.toNat % 8 ≠ 0 ∨ s.teamBytes e < base.toNat + 8 * n then s.syncFault e 3 base
      else
        let prod : BitVec 4 := BitVec.ofNat 4 (fieldOf c 12 4)
        let allow := (List.range 4).foldl (fun t j => if prod.getLsbD j then tabSet 0 t j (fieldOf c 16 16) else t) ([] : Table Nat)
        let old := s.queueReg e (regNo f)
        let s := s.setQueueReg e (regNo f) ⟨base.toNat, logn, 0, 0, prod, true, allow, [], []⟩
        ((old.pushers ++ old.poppers).foldl (fun s w =>
          match s.group e.core w.1 with
          | some g => if (g.prec w.2).reason = 3 then s.wake e.core w.1 w.2 else s
          | none => s) s).after e))

/-- A queue register is valid (R187). -/
def queueValid (f : FmtA) (e : Iss) (s : State) : Bool := (s.queueReg e (regNo f)).valid

/-- QPUSH (R187). -/
def execQpush (f : FmtA) (s : State) : Host.Outcome State Fault Refusal :=
  s.issue (.qpush f) f.guard always (queueValid f) (fun e s => s.whenDrained e (fun s =>
    let n := regNo f
    let q := s.queueReg e n
    let bounded := q.prod.getLsbD e.g.role
    if q.count = 2 ^ q.logn ∨ (bounded ∧ tabGet 0 q.allow e.g.role = 0) then
      (s.setQueueReg e n { q with pushers := q.pushers ++ [(e.slot, e.prec)] }).parkIss e 3 (BitVec.ofNat 64 n)
    else
      let k := s.core e.core
      let a := k.scratchAddr e.g.team (q.base + 8 * ((q.head + q.count) % 2 ^ q.logn))
      if k.barrierIn a 8 then s.syncFault e 8 (BitVec.ofNat 64 (q.base + 8 * ((q.head + q.count) % 2 ^ q.logn))) else
      let s := s.setCore e.core (k.scratchWrite a (leBytes 8 (e.uni f.a).toNat))
      let q := { q with
        count := q.count + 1
        allow := if bounded then tabSet 0 q.allow e.g.role (tabGet 0 q.allow e.g.role - 1) else q.allow }
      ((s.setQueueReg e n q).wakePopper e n).after e))

/-- QPOP (R187): the entry is read at once and D is written when it returns. -/
def execQpop (f : FmtA) (s : State) : Host.Outcome State Fault Refusal :=
  s.issue (.qpop f) f.guard always (queueValid f) (fun e s => s.whenDrained e (fun s =>
    let n := regNo f
    let q := s.queueReg e n
    if q.count = 0 then
      (s.setQueueReg e n { q with poppers := q.poppers ++ [(e.slot, e.prec)] }).parkIss e 3 (BitVec.ofNat 64 n)
    else
      let k := s.core e.core
      let v := leNat (k.scratchRead (k.scratchAddr e.g.team (q.base + 8 * q.head)) 8)
      let s := s.setQueueReg e n { q with head := (q.head + 1) % 2 ^ q.logn, count := q.count - 1 }
      let s := s.onGroup e.core e.slot (fun g => g.setFe f.d.toNat .emptyLocal)
      let s := s.addAccess e.core ⟨e.slot, e.prec, e.g.ctx, .qpop f, e.q.place, [], true, [(0, BitVec.ofNat 128 v)], false, s.clockOf e.core + 6⟩
      (s.wakePusher e n).after e))

/-- QALLOW (R187). -/
def execQallow (f : FmtA) (s : State) : Host.Outcome State Fault Refusal :=
  s.issue (.qallow f) f.guard always (queueValid f) (fun e s => s.whenDrained e (fun s =>
    let n := regNo f
    let q := s.queueReg e n
    let r := fieldOf f.mod 11 2
    let q := { q with allow := tabSet 0 q.allow r (min (tabGet 0 q.allow r + fieldOf (e.uni f.a) 0 16) 65535) }
    ((s.setQueueReg e n q).wakePusher e n).after e))

/-! ### Convergence registers and accumulators (R188–R190, R264) -/

/-- A team's convergence register. -/
def Team.cv (t : Team) (n : Nat) : CvReg := tabGet CvReg.blank t.cvs n

/-- Change a convergence register. -/
def Core.onCv (k : Core) (team n : Nat) (f : CvReg → CvReg) : Core :=
  { k with teams := tabMod k.teams team (fun t => { t with cvs := tabSet CvReg.blank t.cvs n (f (t.cv n)) }) }

/-- A new signing count: at once for a round with no signatures, otherwise from the next round. -/
def CvReg.init (c : CvReg) (count : Nat) : CvReg :=
  if c.signed = 0 then { c with count := count, nextCount := none } else { c with nextCount := some count }

/-- CVINIT's count is 1–1,024 (R188). -/
def cvinitCount (f : FmtA) (e : Iss) (_ : State) : Bool :=
  e.valueOk f.a (fun v => fieldOf v 0 32 != 0 && fieldOf v 0 32 ≤ 1024)

/-- CVINIT (R188). -/
def execCvinit (f : FmtA) (s : State) : Host.Outcome State Fault Refusal :=
  s.issue (.cvinit f) f.guard always (cvinitCount f) (fun e s =>
    let n := fieldOf (e.uni f.a) 0 32
    (s.onCore e.core (fun k => k.onCv e.g.team (regNo f) (fun c => c.init n))).after e)

/-- Tiles of a core. -/
def tileCount : Nat := 32
/-- Elements of a tile. -/
def tileElems : Nat := 4096

/-- Tiles that no resident team holds. -/
def Core.freeTiles (k : Core) : List Nat := (List.range tileCount).filter (fun t => k.teams.all (fun x => !x.2.tiles.contains t))

/-- Zero a tile. -/
def Core.zeroTile (k : Core) (t : Nat) : Core := { k with tiles := k.tiles.filter (fun e => e.1 / tileElems != t) }

/-- Grant a team its next tile: the lowest free, every element +0.0. -/
def Core.grantTile (k : Core) (team : Nat) : Core :=
  match k.freeTiles with
  | [] => k
  | t :: _ => ({ k with teams := tabMod k.teams team (fun x => { x with tiles := x.tiles ++ [t] }) } : Core).zeroTile t

/-- Grant several. -/
def Core.grantTiles (k : Core) (team n : Nat) : Core := (List.range n).foldl (fun k _ => k.grantTile team) k

/-- Tiles a team holds. -/
def Core.teamTiles (k : Core) (team : Nat) : Nat := ((tabFind k.teams team).map (fun t => t.tiles.length)).getD 0

/-- Teams that hold a tile and have a group parked in ACALLOC. -/
def Core.allWaiting (k : Core) : Bool :=
  k.teams.all (fun t => t.2.tiles.isEmpty || k.acWait.any (fun r => r.team == t.1))

/-- The youngest team by admission that holds a tile (R189). -/
def Core.youngest (k : Core) : Option Nat :=
  (k.teams.filter (fun t => !t.2.tiles.isEmpty)).foldl (fun b t =>
    match b with
    | none => some t.1
    | some y => if ((tabFind k.teams y).map Team.admitted).getD 0 ≤ t.2.admitted then some t.1 else b) none

/-- Serve the ACALLOC requests of a core in order (R189); each pass grants or denies one. -/
def State.serveTiles (s : State) (core : Nat) : Nat → State
  | 0 => s
  | fuel + 1 =>
    let k := s.core core
    match k.acWait with
    | [] => s
    | r :: rest =>
      if r.n ≤ k.freeTiles.length then
        let v := k.teamTiles r.team * 2 ^ 8
        let s := s.setCore core ({ k with acWait := rest }.grantTiles r.team r.n)
        (s.wakeWith core r.slot r.prec (BitVec.ofNat 64 v)).serveTiles core fuel
      else if k.allWaiting then
        match k.youngest.bind (fun t => (k.acWait.filter (fun q => q.team = t)).getLast?) with
        | none => s
        | some d =>
          let s := s.setCore core { k with acWait := k.acWait.filter (· != d) }
          (s.wakeWith core d.slot d.prec (BitVec.ofNat 64 (k.teamTiles d.team * 2 ^ 8 + 1))).serveTiles core fuel
      else s

/-- Serve until the oldest request waits. -/
def State.serveTilesAll (s : State) (core : Nat) : State := s.serveTiles core ((s.core core).acWait.length)

/-- Requests whose record is gone are dropped. -/
def State.dropDeadRequests (s : State) (core : Nat) : State :=
  s.onCore core (fun k => { k with acWait := k.acWait.filter (fun r =>
    match tabFind k.groups r.slot with
    | some g => (g.prec r.prec).state == .parked && (g.prec r.prec).reason == 9 && g.team == r.team
    | none => false) })

/-- ACALLOC (R189). -/
def execAcalloc (f : FmtA) (s : State) : Host.Outcome State Fault Refusal :=
  s.issue (.acalloc f) f.guard always always (fun e s =>
    match e.q.answer with
    | some v => s.result e (fun g => g.writeUni f.d e.act v)
    | none =>
      let n := fieldOf (e.uni f.a) 0 32
      let k := (s.core e.core).teamTiles e.g.team
      let most := ((tabFind (s.core e.core).teams e.g.team).map Team.acmax).getD 0
      if most < k + n then s.lanesFault e e.act 10 e.pc 0 0
      else if n = 0 then s.result e (fun g => g.writeUni f.d e.act (BitVec.ofNat 64 (k * 2 ^ 8)))
      else
        let s := (s.parkIss e 9 (BitVec.ofNat 64 n)).onCore e.core (fun k => { k with acWait := k.acWait ++ [⟨e.slot, e.prec, e.g.team, n⟩] })
        s.serveTilesAll e.core)

/-- Tile index that a matrix instruction names, if it names one. -/
def tileOf : Instr → Option Nat
  | .mma f => some (fieldOf f.d 0 5)
  | .mmasp f => some (fieldOf f.d 0 5)
  | .mmv f => if f.mod.getLsbD 11 then none else some (fieldOf f.d 0 5)
  | .mldt f => some (fieldOf f.d 0 5)
  | .mzero f => some (fieldOf f.d 0 5)
  | .mepi f => some (fieldOf f.d 0 5)
  | _ => none

/-- A copied piece touches a physical tile of a core through the accumulator window. -/
def Piece.touchesTile (p : Piece) (core : Nat) (cmap : Word64) (t : Nat) : Bool :=
  let side (a : CopyAddr) : Bool :=
    match a with
    | .scratch _ => false
    | .phys _ _ => false
    | .line _ _ _ => false
    | .ptr p => ptrTag p == 2 && ptrWindow p == 2 && physCore cmap (ptrCore p) == core && ptrOff p / (4 * tileElems) == t
  side p.src || side p.dst

/-- Operations in flight name a team's tile (R190). -/
def State.tileBusy (s : State) (core team n : Nat) : Bool :=
  let k := s.core core
  let phys := ((tabFind k.teams team).map (fun t => t.tiles.getD n tileCount)).getD tileCount
  (match k.matrix.running with
    | some m => m.team == team && tileOf m.round.sig.instr == some n
    | none => false) ||
  k.nears.any (fun x => x.2.team == team && tileOf x.2.round.sig.instr == some n) ||
  ((tabFind k.teams team).map (fun t => t.cvs.any (fun c => c.2.rounds.any (fun r => tileOf r.sig.instr == some n)))).getD false ||
  s.cores.any (fun c => c.2.copies.any (fun x => (x.2.todo ++ x.2.flying.map FlyOp.op).any (fun o => o.pieces.any (fun p =>
    p.touchesTile core (s.ctx x.2.ctx).cmap phys))))

/-- ACFREE (R190). -/
def execAcfree (f : FmtA) (s : State) : Host.Outcome State Fault Refusal :=
  s.issue (.acfree f) f.guard always always (fun e s =>
    let n := fieldOf (e.uni f.a) 0 32
    let k := (s.core e.core).teamTiles e.g.team
    let least := ((tabFind (s.core e.core).teams e.g.team).map Team.acmin).getD 0
    if k < least + n then s.lanesFault e e.act 10 e.pc 0 0
    else if (List.range n).any (fun i => s.tileBusy e.core e.g.team (k - n + i)) then s
    else
      let freed := (((tabFind (s.core e.core).teams e.g.team).map Team.tiles).getD []).drop (k - n)
      let s := s.onCore e.core (fun c => freed.foldl Core.zeroTile
        { c with teams := tabMod c.teams e.g.team (fun t => { t with tiles := t.tiles.take (k - n) }) })
      (s.serveTilesAll e.core).after e)

end Sys2Proof.Machine
end

