-- ==== Sys2Proof/Machine/Matrix.lean ====
section
/-! DEFINITION. Sys2Proof/Machine/Matrix.lean: convergence signing (R199), the matrix engine and the bank multipliers
(R200–R212, R273–R278). -/

namespace Sys2Proof.Machine

/-! ### Errors of engine operations (R196) -/

/-- The group that an operation is attributed to is still resident. -/
def State.groupLives (s : State) (core slot age : Nat) : Bool :=
  match s.group core slot with
  | some g => g.age == age
  | none => false

/-- An error record of an engine operation: the group's fault registers, where it lives, and the context's log. -/
def State.engineError (s : State) (core ctx slot prec age : Nat) (pc : Word64) (cls cause : Nat) (addr : Word64) (detail : Nat) : State :=
  let f : FaultInfo := ⟨cls, 0, 0, cause, false, prec, slot, core, addr, pc, 0, detail⟩
  if s.groupLives core slot age then (s.recordFault core slot f).1 else (s.logFault ctx f).1

/-- Completion of an engine operation on its barrier; a refused credit is an error of class 8 (R178). -/
def State.creditBar (s : State) (core ctx slot prec age : Nat) (pc : Word64) (bar : Option Nat) (n : Nat) (err : Bool) : State :=
  let (s, ok) := s.barComplete core bar n err
  if ok then s else s.engineError core ctx slot prec age pc 8 0 (BitVec.ofNat 64 (bar.getD 0)) 0

/-! ### Descriptors and barrier operands -/

/-- Descriptor register k. -/
def Iss.desc (e : Iss) (f : FmtA) (k : Nat) : Word64 := e.g.sreg (f.c.toNat - 0xC0 + k)

/-- Values that a signature fixes (R199): A and B where they name uniform sources, then the descriptor registers. -/
def Iss.fixedVals (e : Iss) (f : FmtA) (n : Nat) : List Word64 :=
  [f.a, f.b].map (fun c => if isUni c then e.uni c else 0) ++ (List.range n).map (e.desc f)

/-- What an issue-time check finds: nothing, or a fault class and address. -/
abbrev Check := Option (Nat × Word64)

/-- The first failing check. -/
def firstBad : List Check → Check
  | [] => none
  | some c :: _ => some c
  | none :: cs => firstBad cs

/-- A range of the team's scratchpad with an alignment, or a bounds fault. -/
def State.scratchCheck (s : State) (e : Iss) (off n align : Nat) : Check :=
  if off % align = 0 ∧ off + n ≤ s.teamBytes e then none else some (3, BitVec.ofNat 64 off)

/-- A range of the team's scratchpad touches no barrier object. -/
def State.noBarCheck (s : State) (e : Iss) (off n : Nat) : Check :=
  let k := s.core e.core
  if k.barrierIn (k.scratchAddr e.g.team off) n then some (8, BitVec.ofNat 64 off) else none

/-- A failing condition is a bounds fault. -/
def boundsIf (bad : Bool) (addr : Word64) : Check := if bad then some (3, addr) else none

/-- A barrier operand (R197): none names no object. -/
def State.barCheck (s : State) (e : Iss) : Option Word64 → Except (Nat × Word64) (Option Nat)
  | none => .ok none
  | some off =>
    match s.barOperand e.core e.g.team off true with
    | .error c => .error (c, off)
    | .ok a => .ok (some a)

/-! ### Signing (R199, R273) -/

/-- Count signatures: the register after them, and the rounds that they complete. `fuel` bounds the rounds. -/
def CvReg.count' (c : CvReg) (left : Nat) : Nat → CvReg × Nat × Nat
  | 0 => (c, 0, left)
  | fuel + 1 =>
    if c.signed + left < c.count ∨ c.count = 0 then ({ c with signed := c.signed + left }, 0, left)
    else
      let rest := left - (c.count - c.signed)
      let (c', n, r) := ({ c with signed := 0, count := c.nextCount.getD c.count, nextCount := none } : CvReg).count' rest fuel
      (c', n + 1, r)

/-- Sign a register: the register after, and the number of rounds completed. -/
def CvReg.sign (c : CvReg) (g : Signature) : CvReg × Nat :=
  let (c', n, _) := c.count' (laneCount g.lanes) 33
  ({ c' with sigs := if c'.signed = 0 then [] else if n = 0 then c'.sigs ++ [g] else [g] }, n)

/-- The register's first signature fixes another operation. -/
def CvReg.differs (c : CvReg) (i : Instr) (vals : List Word64) : Bool :=
  match c.sigs with
  | [] => false
  | g :: _ => c.signed != 0 && (g.instr != i || g.vals != vals)

/-- The register of the issuing team. -/
def State.cvOf (s : State) (e : Iss) (n : Nat) : CvReg := ((tabFind (s.core e.core).teams e.g.team).map (fun t => t.cv n)).getD CvReg.blank

/-- Its count has been set (R199). -/
def cvSet (n : Nat) (e : Iss) (s : State) : Bool := (s.cvOf e n).count != 0

/-- The signature of the issuing path. -/
def Iss.signature (e : Iss) (i : Instr) (vals : List Word64) : Signature := ⟨i, vals, e.slot, e.prec, e.g.age, e.act, e.q.place⟩

/-- Copies that an engine's slots may hold. -/
def copySlots : Nat := 128
/-- Near-memory slots. -/
def nearSlots : Nat := 16
/-- Step slots. -/
def stepSlots : Nat := 32

/-! ### The order of the matrix engine (R200) -/

/-- Place of a round in the order: cycle, team slot, register, order of completion. -/
abbrev RoundKey := Nat × Nat × Nat × Nat

/-- Lexicographic order. -/
def keyBefore (a b : RoundKey) : Bool :=
  a.1 < b.1 || (a.1 == b.1 && (a.2.1 < b.2.1 || (a.2.1 == b.2.1 && (a.2.2.1 < b.2.2.1 || (a.2.2.1 == b.2.2.1 && a.2.2.2 < b.2.2.2)))))

/-- Key of a round. -/
def roundKey (team cv : Nat) (r : Round) : RoundKey := (r.time, team, cv, r.order)

/-- Completed rounds that the engine has not started. -/
def Core.pendingRounds (k : Core) : List (RoundKey × Nat × Nat × Round) :=
  k.teams.flatMap (fun t => t.2.cvs.flatMap (fun c => c.2.rounds.map (fun r => (roundKey t.1 c.1 r, t.1, c.1, r))))

/-- The first of some rounds. -/
def firstRound : List (RoundKey × Nat × Nat × Round) → Option (RoundKey × Nat × Nat × Round)
  | [] => none
  | r :: rs => some (rs.foldl (fun a b => if keyBefore b.1 a.1 then b else a) r)

/-- Completed rounds of contexts that are resident: those of a context that leaves its cores wait in their registers (R273,
R324, R338). -/
def State.roundsHere (s : State) (core : Nat) : List (RoundKey × Nat × Nat × Round) :=
  (s.core core).pendingRounds.filter (fun r =>
    ((tabFind (s.core core).teams r.2.1).map (fun t => (s.ctx t.ctx).state == .resident)).getD false)

/-- Physical tile that an instruction of a team names. -/
def Core.physTile (k : Core) (team : Nat) (i : Instr) : Option Nat :=
  match tileOf i, tabFind k.teams team with
  | some n, some t => t.tiles[n]?
  | _, _ => none

/-- Key of a near-memory operation. -/
def Near.key (x : Near) : RoundKey := roundKey x.team x.cv x.round

/-- An operation on the tile of an MMV that stands before it has not ended. -/
def Core.nearBlocked (k : Core) (x : Near) : Bool :=
  match x.tile with
  | none => false
  | some t =>
    k.pendingRounds.any (fun r => keyBefore r.1 x.key && k.physTile r.2.1 r.2.2.2.sig.instr == some t) ||
    k.nears.any (fun y => keyBefore y.2.key x.key && y.2.tile == some t) ||
    (match k.matrix.running with
      | some m => m.tile == t && m.near.isNone
      | none => false)

/-- An MMV that precedes a round on its tile has not written it. -/
def Core.roundBlocked (k : Core) (key : RoundKey) (tile : Option Nat) : Bool :=
  k.nears.any (fun x => keyBefore x.2.key key && x.2.tile.isSome && x.2.tile == tile)

/-- The round that the engine may start now (R273). -/
def State.startable (s : State) (core : Nat) : Option (Nat × Nat × Round) :=
  let k := s.core core
  match k.matrix.running, firstRound (s.roundsHere core) with
  | none, some (key, team, cv, r) =>
    if k.matrix.freeAt ≤ s.clockOf core ∧ r.time + 4 ≤ s.clockOf core ∧ !k.roundBlocked key (k.physTile team r.sig.instr) then some (team, cv, r) else none
  | _, _ => none

/-- A path may not sign yet: a completed round of the register has not been started (R273). -/
def State.cvHeld (s : State) (e : Iss) (n : Nat) : Bool :=
  let k := s.core e.core
  !(s.cvOf e n).rounds.isEmpty || k.nears.any (fun x => x.2.team == e.g.team && x.2.cv == n && !x.2.dead && k.nearBlocked x.2)

/-- Sign convergence register n with an operation: stall, also until the group's earlier accesses to the scratchpad and the
on-chip map are performed, which come before the operation's operand reads (R201, R283); uniformity, the checks of the path, room for what the rounds
need, then the signatures; `accept` takes each completed round, with its barrier, and `done` goes on after the word. DESIGN
CHOICE (log 194): LANE of the uniformity fault of R199 is the path's lowest lane; R139's lane, one that differs from the lowest, is
not there when the path's lanes agree with each other. -/
def State.signingTo (s : State) (e : Iss) (i : Instr) (n op : Nat) (vals : List Word64) (checks : State → Except (Nat × Word64) (Option Nat))
    (slots : Core → Nat) (accept : Option Nat → Round → State → State) (done : State → State) : State :=
  if s.cvHeld e n || (s.core e.core).localPending e.slot then s
  else if (s.cvOf e n).differs i vals then s.wholeFault e 7 e.pc (lowestLane e.q.lanes)
  else
    match checks s with
    | .error (c, a) => s.lanesFault e e.act c a 0 0
    | .ok bar =>
      let k := s.core e.core
      let (c, rounds) := (s.cvOf e n).sign (e.signature i vals)
      let full := match bar with
        | some a => decide (pendMax < (k.bar a).pend + rounds)
        | none => false
      if slots k < rounds || (full && rounds != 0) then s.parkIss e 10 (BitVec.ofNat 64 op)
      else
        let s := s.onCore e.core (fun k => k.onCv e.g.team n (fun _ => c))
        let s := (List.range rounds).foldl (fun s _ =>
          let r : Round := ⟨e.signature i vals, e.q.lanes, s.clockOf e.core, (s.core e.core).nextRound⟩
          accept bar r (s.onCore e.core (fun k => { (k.barAccept bar) with nextRound := k.nextRound + 1 }))) s
        done s

/-- Sign and go on after the word. -/
def State.signing (s : State) (e : Iss) (i : Instr) (n op : Nat) (vals : List Word64) (checks : State → Except (Nat × Word64) (Option Nat))
    (slots : Core → Nat) (accept : Option Nat → Round → State → State) : State :=
  s.signingTo e i n op vals checks slots accept (fun s => s.after e)

/-! ### Issue of the matrix instructions (R202–R212) -/

/-- The round waits in its register. -/
def State.queueRound (s : State) (e : Iss) (n : Nat) (r : Round) : State :=
  s.onCore e.core (fun k => k.onCv e.g.team n (fun c => { c with rounds := c.rounds ++ [r] }))

/-- The tile exists (R26, R195). -/
def tileHeld (i : Instr) (e : Iss) (s : State) : Bool :=
  match tileOf i with
  | none => true
  | some n => n < (s.core e.core).teamTiles e.g.team

/-- Checks of a matrix instruction that rest on the team's state. -/
def matrixPre (i : Instr) (n : Nat) (e : Iss) (s : State) : Bool := tileHeld i e s && cvSet n e s

/-- A barrier offset read where its enable bit is 1. -/
def barField (d : Word64) (lo : Nat) : Option Word64 := if d.getLsbD 63 then some (BitVec.ofNat 64 (fieldOf d lo 20)) else none

/-- Checks, then the barrier, in the order of R232: space, bounds and rights of the ranges, then of the barrier operand;
barrier-object writes (class 8) last. -/
def State.checksThenBar (s : State) (e : Iss) (cs : List Check) (bar : Option Word64) : Except (Nat × Word64) (Option Nat) :=
  match firstBad (cs.filter (fun c => c.all (fun c => c.1 != 8))) with
  | some c => .error c
  | none =>
    match s.barCheck e bar, firstBad cs with
    | .error (3, off), _ => .error (3, off)
    | _, some c => .error c
    | r, none => r

/-- An instruction of the matrix engine. -/
def State.matrixInstr (s : State) (i : Instr) (f : FmtA) (op nd : Nat) (checks : Iss → State → List Check) (bar : Iss → Option Word64) :
    Host.Outcome State Fault Refusal :=
  s.issue i f.guard always (matrixPre i (regNo f)) (fun e s =>
    s.signing e i (regNo f) op (if nd = 0 then [] else e.fixedVals f nd) (fun s => s.checksThenBar e (checks e s) (bar e)) (fun _ => 33)
      (fun _ r s => s.queueRound e (regNo f) r))

/-- Element format of MMA and MMASP. -/
def FmtA.elem (f : FmtA) : MatElem := matElem f.ty (fieldOf f.mod 4 3)

/-- Checks of MMA and MMASP (R203, R204). -/
def mmaChecks (f : FmtA) (sparse : Bool) (e : Iss) (s : State) : List Check :=
  let m := FmtA.elem f
  let d0 := e.desc f 0
  let d1 := e.desc f 1
  [s.scratchCheck e (fieldOf d0 0 20) (64 * m.rowBytes) 128, s.scratchCheck e (fieldOf d0 32 20) (64 * m.rowBytes) 128] ++
  (if f.ty = 14 then
    [s.scratchCheck e (fieldOf d1 0 20) (64 * (m.depth / 32)) 16, s.scratchCheck e (fieldOf d1 20 20) (64 * (m.depth / 32)) 16]
  else []) ++
  (if sparse then [s.scratchCheck e (fieldOf (e.uni f.a) 0 20) (m.depth / 8) 8] else [])

/-- MMA (R205). -/
def execMma (f : FmtA) (s : State) : Host.Outcome State Fault Refusal :=
  s.matrixInstr (.mma f) f 0xC0 2 (mmaChecks f false) (fun e => barField (e.desc f 1) 40)

/-- MMASP (R205, R206). -/
def execMmasp (f : FmtA) (s : State) : Host.Outcome State Fault Refusal :=
  s.matrixInstr (.mmasp f) f 0xC1 2 (mmaChecks f true) (fun e => barField (e.desc f 1) 40)

/-- Rows and row bytes of MLDT's scratchpad footprint (R210). -/
def mldtRows (f : FmtA) (d : Word64) : Nat × Nat :=
  let nr := fieldOf d 36 6 + 1
  let nc := fieldOf d 42 6 + 1
  if f.mod.getLsbD 12 then (nc, 4 * nr) else (nr, 4 * nc)

/-- Checks of MLDT. -/
def mldtChecks (f : FmtA) (e : Iss) (s : State) : List Check :=
  let d := e.desc f 0
  let soff := fieldOf d 0 20
  let pitch := fieldOf d 20 16
  let (rows, bytes) := mldtRows f d
  [boundsIf (pitch % 4 != 0 || pitch < 4 || 64 < fieldOf d 48 6 + fieldOf d 36 6 + 1 || 64 < fieldOf d 54 6 + fieldOf d 42 6 + 1) (BitVec.ofNat 64 soff),
    s.scratchCheck e soff ((rows - 1) * pitch + bytes) 4] ++
  (if f.mod.getLsbD 11 then (List.range rows).map (fun r => s.noBarCheck e (soff + r * pitch) bytes) else [])

/-- MLDT (R210). -/
def execMldt (f : FmtA) (s : State) : Host.Outcome State Fault Refusal :=
  s.matrixInstr (.mldt f) f 0xC3 2 (mldtChecks f) (fun e => barField (e.desc f 1) 0)

/-- MZERO (R209). -/
def execMzero (f : FmtA) (s : State) : Host.Outcome State Fault Refusal :=
  s.matrixInstr (.mzero f) f 0xC4 0 (fun _ _ => []) (fun _ => none)

/-- Checks of MEPI (R211). -/
def mepiChecks (f : FmtA) (e : Iss) (s : State) : List Check :=
  let d := e.desc f 0
  let soff := fieldOf d 0 20
  let pitch := fieldOf d 20 16
  let bytes := 64 * epiBytes f.ty
  [boundsIf (pitch % 16 != 0 || pitch < bytes) (BitVec.ofNat 64 soff), s.scratchCheck e soff (63 * pitch + bytes) 16] ++
  (List.range 64).map (fun r => s.noBarCheck e (soff + r * pitch) bytes)

/-- MEPI (R211). -/
def execMepi (f : FmtA) (s : State) : Host.Outcome State Fault Refusal :=
  s.matrixInstr (.mepi f) f 0xC5 2 (mepiChecks f) (fun e => barField (e.desc f 1) 0)

/-- K, M, V and BPITCH of an MMV (R212). -/
structure MmvShape where
  /-- K -/
  k : Nat
  /-- M -/
  m : Nat
  /-- V -/
  v : Nat
  /-- BPITCH -/
  pitch : Nat
  deriving DecidableEq, Repr

/-- From s(c+2). -/
def mmvShape (d : Word64) : MmvShape := ⟨16 * fieldOf d 0 16, fieldOf d 16 6 + 1, fieldOf d 22 6 + 1, fieldOf d 32 32⟩

/-- Checks of MMV (R212): the local ranges, then B (R232). -/
def mmvChecks (f : FmtA) (e : Iss) (s : State) : List Check :=
  let b := e.desc f 0
  let d1 := e.desc f 1
  let x := mmvShape (e.desc f 2)
  let foot := (x.m - 1) * x.pitch + 2 * x.k
  [s.scratchCheck e (fieldOf d1 0 20) (x.v * x.k * 2) 128] ++
  (if f.mod.getLsbD 11 then [s.scratchCheck e (fieldOf d1 20 20) (x.m * x.v * 4) 16, s.noBarCheck e (fieldOf d1 20 20) (x.m * x.v * 4)] else []) ++
  [if ptrTag b = 1 then none else some (2, b),
    boundsIf (x.k == 0 || 65536 < x.k || x.pitch % 128 != 0 || x.pitch < 2 * x.k) b,
    (s.checkAddress e.core e.g.ctx e.g.team b false foot 1 .tensor .read false).1.map (fun c => (c, b))]

/-- Free near-memory slots. -/
def Core.freeNears (k : Core) : Nat := nearSlots - k.nears.length

/-- MMV (R212, R277). -/
def execMmv (f : FmtA) (s : State) : Host.Outcome State Fault Refusal :=
  s.issue (.mmv f) f.guard always (matrixPre (.mmv f) (regNo f)) (fun e s =>
    s.signing e (.mmv f) (regNo f) 0xC2 (e.fixedVals f 3)
      (fun s => s.checksThenBar e (mmvChecks f e s) (barField (e.desc f 1) 40)) Core.freeNears
      (fun bar r s => s.onCore e.core (fun k =>
        match tabFree k.nears nearSlots with
        | none => k
        | some j => { k with nears := tabPut k.nears j ⟨e.g.ctx, e.g.launch, e.g.team, false, regNo f, r, k.physTile e.g.team (.mmv f), bar, false,
            none, none, s.descsOf e.core e.g.ctx [r.sig.vals.getD 2 0]⟩ })))

/-! ### What an operation writes (R203–R211) -/

/-- What an operation of the engine does. -/
structure MatResult where
  /-- Tile elements. -/
  tileWrites : List (Nat × Word32)
  /-- Scratchpad bytes by core address. -/
  scratchWrites : List (Nat × List Byte)
  /-- Cycles. -/
  cycles : Nat
  /-- Bytes credited. -/
  credit : Nat
  /-- Chunks to read. -/
  run : Option MmaRun
  deriving DecidableEq, Repr

/-- MMA and MMASP (R205–R207): their chunks are read across the engine time. -/
def Core.mmaResult (k : Core) (f : FmtA) (vals : List Word64) (base tile policy now : Nat) (sparse : Bool) (upsets : List ChunkUpset) : MatResult :=
  let m := FmtA.elem f
  let nbc := m.depth / 8
  let bm := if sparse then leNat (k.scratchRead (base + fieldOf (vals.getD 0 0) 0 20) nbc) else 0
  let span := if sparse then max 8 (ceilDiv (8 * nbc - popCount (8 * nbc) bm) m.perCycle) else 64
  let elems := (List.range tileElems).map (fun i => if f.mod.getLsbD 11 then 0 else (tabGet 0 k.tiles (tile * tileElems + i)).toNat)
  { tileWrites := [], scratchWrites := [], cycles := span, credit := 128 * m.rowBytes
    run := some ⟨base, policy, upsets, bm, 0, now, span, elems, []⟩ }

/-- One chunk of every element, row by row: the elements after it and the events of its checks (R205, R206, R208). -/
def Core.mmaChunk (k : Core) (f : FmtA) (vals : List Word64) (r : MmaRun) : List Nat × List MatEvent :=
  let m := FmtA.elem f
  let d0 := vals.getD 2 0
  let d1 := vals.getD 3 0
  let bytes := m.chunkLen * m.bits / 8
  let ch := r.next
  let row (off i : Nat) : Nat := leNat (k.scratchRead (r.base + off + i * m.rowBytes + ch * bytes) bytes)
  let arows := (List.range 64).map (row (fieldOf d0 0 20))
  let brows := (List.range 64).map (row (fieldOf d0 32 20))
  let scale (off i : Nat) : Nat := if f.ty = 14 then (tabGet 0 k.scratch (r.base + off + i * (m.depth / 32) + ch)).toNat else 127
  let us := r.upsets.filter (fun u => u.chunk = ch)
  let res := (List.range 64).flatMap (fun i => (List.range 64).map (fun j =>
    let cs := (List.range m.chunkLen).filter (fun c => !r.bitmap.testBit (i / 8 * (m.depth / 8) + (ch * m.chunkLen + c) / 8))
    let (delta, ev) := chunkError r.policy (us.filter (fun u => u.row = i ∧ u.col = j))
    (chunk m (f.mod.getLsbD 3) (scale (fieldOf d1 0 20) i) (scale (fieldOf d1 20 20) j) delta (r.elems.getD (i * 64 + j) 0)
        (cs.map (fun c => (rowElem m.bits (arows.getD i 0) c, rowElem m.bits (brows.getD j 0) c))),
      ev.map (fun c => (⟨i, j, ch * m.chunkLen, c⟩ : MatEvent)))))
  (res.map Prod.fst, res.filterMap Prod.snd)

/-- Cycle in which the next chunk is read: the chunks share the engine time evenly. DESIGN CHOICE (log 28). -/
def MmaRun.due (r : MmaRun) (chunks : Nat) : Nat := r.since + r.next * r.span / chunks

/-- The operation after its next chunk: a retried chunk adds two cycles (R207), and the last leaves what is to be written. -/
def Core.readChunk (k : Core) (f : FmtA) (op : MatrixOp) (r : MmaRun) : MatrixOp :=
  let m := FmtA.elem f
  let (elems, es) := k.mmaChunk f op.round.sig.vals r
  let more := if r.policy = 2 then 2 * es.length else 0
  let op := { op with events := op.events ++ es, ends := op.ends + more }
  if r.next + 1 < m.depth / m.chunkLen then
    { op with run := some { r with next := r.next + 1, since := r.since + more, elems := elems } }
  else
    { op with
      run := none
      tileWrites := ((List.range tileElems).filter (fun i => !r.lost.contains i)).map (fun i =>
        (op.tile * tileElems + i, BitVec.ofNat 32 (elems.getD i 0))) }

/-- The word of an MMA or MMASP. -/
def mmaWord : Instr → Option FmtA
  | .mma f => some f
  | .mmasp f => some f
  | _ => none

/-- The operation after the chunks that are read up to a cycle. `n` bounds them. -/
def Core.readChunks (k : Core) (now : Nat) : Nat → MatrixOp → MatrixOp
  | 0, op => op
  | n + 1, op =>
    match op.run, mmaWord op.round.sig.instr with
    | some r, some f =>
      let m := FmtA.elem f
      if r.due (m.depth / m.chunkLen) ≤ now then k.readChunks now n (k.readChunk f op r) else op
    | _, _ => op

/-- Most chunks of an operation. -/
def chunkMax : Nat := 8

/-- The engine of a core reads the chunks that are due. -/
def Core.feed (k : Core) (now : Nat) : Core :=
  { k with matrix := { k.matrix with running := k.matrix.running.map (k.readChunks now chunkMax) } }

/-- MLDT (R210). -/
def Core.mldtResult (k : Core) (f : FmtA) (vals : List Word64) (base tile : Nat) : MatResult :=
  let d := vals.getD 2 0
  let soff := fieldOf d 0 20
  let pitch := fieldOf d 20 16
  let nr := fieldOf d 36 6 + 1
  let nc := fieldOf d 42 6 + 1
  let cells := (List.range nr).flatMap (fun i => (List.range nc).map (fun j =>
    let p := if f.mod.getLsbD 12 then j else i
    let q := if f.mod.getLsbD 12 then i else j
    (base + soff + p * pitch + q * 4, tile * tileElems + (fieldOf d 48 6 + i) * 64 + (fieldOf d 54 6 + j))))
  { tileWrites := if f.mod.getLsbD 11 then [] else cells.map (fun c => (c.2, BitVec.ofNat 32 (leNat (k.scratchRead c.1 4))))
    scratchWrites := if f.mod.getLsbD 11 then cells.map (fun c => (c.1, leBytes 4 (tabGet 0 k.tiles c.2).toNat)) else []
    cycles := 8 + ceilDiv (nr * nc) 64
    credit := nr * nc * 4
    run := none }

/-- MEPI (R211). -/
def Core.mepiResult (k : Core) (f : FmtA) (vals : List Word64) (base tile : Nat) : MatResult :=
  let d := vals.getD 2 0
  let eb := epiBytes f.ty
  { tileWrites := []
    scratchWrites := (List.range 64).map (fun i =>
      (base + fieldOf d 0 20 + i * fieldOf d 20 16, (List.range 64).flatMap (fun j =>
        leBytes eb (epiElem f.ty (roundingOf (fieldOf f.mod 0 3) 0) (f.mod.getLsbD 3) (f.mod.getLsbD 11) (signedOf 8 (fieldOf d 36 8))
          (tabGet 0 k.tiles (tile * tileElems + i * 64 + j))))))
    cycles := 32
    credit := 4096 * eb
    run := none }

/-- MZERO (R209). -/
def mzeroResult (tile : Nat) : MatResult :=
  ⟨(List.range tileElems).map (fun i => (tile * tileElems + i, 0)), [], 16, 0, none⟩

/-- What a round's operation does that starts in a cycle: from its operands as they stand, but for the chunks of MMA and MMASP,
which are still to be read. -/
def Core.matResult (k : Core) (i : Instr) (vals : List Word64) (base tile policy now : Nat) (upsets : List ChunkUpset) : MatResult :=
  match i with
  | .mma f => k.mmaResult f vals base tile policy now false upsets
  | .mmasp f => k.mmaResult f vals base tile policy now true upsets
  | .mldt f => k.mldtResult f vals base tile
  | .mepi f => k.mepiResult f vals base tile
  | _ => mzeroResult tile

/-- Offset of the barrier that an operation credits. -/
def matBar (i : Instr) (vals : List Word64) : Option Word64 :=
  match i with
  | .mma _ => barField (vals.getD 3 0) 40
  | .mmasp _ => barField (vals.getD 3 0) 40
  | .mldt _ => barField (vals.getD 3 0) 0
  | .mepi _ => barField (vals.getD 3 0) 0
  | _ => none

/-! ### MATRIX_OP_START and MATRIX_OP_END (R273, R274) -/

/-- Matrix-check policy of a launch. -/
def State.mcheckOf (s : State) (launch : Nat) : Nat := ((tabFind s.launches launch).map Launch.mcheck).getD 0

/-- MATRIX_OP_START (R273): the engine starts the next round in order, and begins to read its operands. -/
def execMatrixOpStart (core : Nat) (upsets : List ChunkUpset) (s : State) : Host.Outcome State Fault Refusal :=
  .next (match s.startable core with
    | none => s
    | some (team, cv, r) =>
      let k := s.core core
      match tabFind k.teams team, k.physTile team r.sig.instr with
      | some t, some tile =>
        let res := k.matResult r.sig.instr r.sig.vals (t.base * 128) tile (s.mcheckOf t.launch) (s.clockOf core) upsets
        let op : MatrixOp :=
          { run := res.run, ctx := t.ctx, launch := t.launch, team := team, dead := false, near := none, round := r, ends := s.clockOf core + res.cycles - 1,
            tileWrites := res.tileWrites, scratchWrites := res.scratchWrites, events := [], tile := tile,
            credit := (matBar r.sig.instr r.sig.vals).map (fun o => (t.base * 128 + o.toNat, res.credit)), error := none }
        s.setCore core { (k.onCv team cv (fun c => { c with rounds := c.rounds.filter (fun x => x.order != r.order) })) with
          matrix := { k.matrix with running := some (k.readChunks (s.clockOf core) chunkMax op) } }
      | _, _ => s)

/-- Pieces of a byte range within 16 bytes: offset from the start, and length. -/
def granules (a n : Nat) : List (Nat × Nat) :=
  (List.range (if n = 0 then 0 else (a + n - 1) / 16 - a / 16 + 1)).map (fun i =>
    let lo := max a ((a / 16 + i) * 16)
    let hi := min (a + n) ((a / 16 + i + 1) * 16)
    (lo - a, hi - lo))

/-- The engine's writes to the scratchpad, cut where barrier objects may begin. -/
def writePieces (ws : List (Nat × List Byte)) : List (Nat × List Byte) :=
  ws.flatMap (fun w => (granules w.1 w.2.length).map (fun p => (w.1 + p.1, (w.2.drop p.1).take p.2)))

/-- Write bytes to the scratchpad for the engine, but for those of barrier objects (R177): the address of the first refused. -/
def Core.engineWrites (k : Core) (ws : List (Nat × List Byte)) : Core × Option Nat :=
  let ps := writePieces ws
  let bad := ps.filter (fun w => k.barrierIn w.1 w.2.length)
  ((ps.filter (fun w => !k.barrierIn w.1 w.2.length)).foldl (fun k w => k.scratchWrite w.1 w.2) k, (bad.head?).map Prod.fst)

/-- Write the results of an operation. -/
def Core.applyMatrix (k : Core) (op : MatrixOp) : Core × Option Nat :=
  ({ k with tiles := op.tileWrites.foldl (fun t w => tabSet 0 t w.1 w.2) k.tiles } : Core).engineWrites op.scratchWrites

/-- DETAIL of a matrix-check record (R425). -/
def MatEvent.detail (v : MatEvent) (tile : Nat) : Nat := tile % 32 + v.row % 64 * 2 ^ 5 + v.col % 64 * 2 ^ 11 + v.k % 2 ^ 16 * 2 ^ 17

/-- Window-2 pointer of a physical tile's first byte, with the logical core number. -/
def tilePointer (cmap : Word64) (core tile : Nat) : Word64 := BitVec.ofNat 64 (2 * 2 ^ 62 + logCore cmap core * 2 ^ 43 + 2 * 2 ^ 40 + tile * 16384)

/-- x.mstat after an event (R36). -/
def mstatEvent (m : Word64) (cor : Bool) : Word64 :=
  BitVec.ofNat 64 (min (fieldOf m 0 16 + 1) 0xFFFF + min (fieldOf m 16 16 + (if cor then 1 else 0)) 0xFFFF * 2 ^ 16 + 2 ^ 63)

/-- Count an event in a log's counters. -/
def LogRegs.countMat (g : LogRegs) (cor : Bool) : LogRegs := { g with mcdet := satInc g.mcdet, mccor := if cor then satInc g.mccor else g.mccor }

/-- The fields of a matrix-check record. -/
def MatrixOp.info (op : MatrixOp) (core : Nat) (addr : Word64) (v : MatEvent) : FaultInfo :=
  ⟨13, 0, 0, 0, v.corrected, op.round.sig.prec, op.round.sig.slot, core, addr, op.round.sig.place.word, 0, v.detail op.tile⟩

/-- Count and record one event (R275, R430). -/
def State.matEvent (s : State) (core : Nat) (op : MatrixOp) (v : MatEvent) : State :=
  let g := op.round.sig
  let s := if s.groupLives core g.slot g.age then s.onGroup core g.slot (fun x => { x with mstat := mstatEvent x.mstat v.corrected }) else s
  let c := s.ctx op.ctx
  let s := s.setCtx op.ctx { c with log := c.log.countMat v.corrected }
  let s := { s with modLog := s.modLog.countMat v.corrected }
  (s.logFault op.ctx (op.info core (tilePointer (s.ctx op.ctx).cmap core op.tile) v)).1

/-- A matrix-check fault of an operation (R276): recorded, and pending in the records that hold its threads. -/
def State.matFault (s : State) (core : Nat) (op : MatrixOp) (v : MatEvent) : State :=
  let g := op.round.sig
  let addr := tilePointer (s.ctx op.ctx).cmap core op.tile
  let f := { op.info core addr v with corr := false }
  if s.groupLives core g.slot g.age then
    let (s, a) := s.recordFault core g.slot f
    match s.group core g.slot with
    | none => s
    | some x =>
      let hit := [0, 1, 2, 3].filter (fun i => (x.prec i).state != .free && (x.prec i).lanes &&& op.round.path != 0)
      let s := hit.foldl (fun s i => s.onPrec core g.slot i (fun q => { q with matFaults := q.matFaults ++ [⟨op.round.order, addr, a, op.round.path⟩] })) s
      s.enqueue (hit.map (fun i => .matcheckFaultDelivery core g.slot i))
  else (s.logFault op.ctx f).1

/-- Events of an ended operation under the launch's policy. -/
def State.matEvents (s : State) (core : Nat) (op : MatrixOp) : State :=
  let s := op.events.foldl (fun s v => s.matEvent core op v) s
  let policy := s.mcheckOf op.launch
  match if policy = 1 then op.events.head? else if policy = 2 then op.events.find? (fun v => !v.corrected) else none with
  | some v => s.matFault core op v
  | none => s

/-- MATRIX_OP_END (R274): in its last cycle the operation writes its results and credits its barrier. -/
def execMatrixOpEnd (core : Nat) (s : State) : Host.Outcome State Fault Refusal :=
  .next (match (s.core core).matrix.running with
    | none => s
    | some op =>
      if s.clockOf core < op.ends ∨ op.run.isSome then s
      else
        let g := op.round.sig
        let k := s.core core
        let (k, hit) := if op.dead then (k, none) else k.applyMatrix op
        let s := s.setCore core { k with
          matrix := ⟨none, op.ends + 1⟩
          nears := match op.near with
            | some j => tabDel k.nears j
            | none => k.nears }
        let s := s.matEvents core op
        let s := match op.error with
          | some c => s.engineError core op.ctx g.slot g.prec g.age g.place.word c 0 (tilePointer (s.ctx op.ctx).cmap core op.tile) 0
          | none => s
        let s := match hit with
          | some a => s.engineError core op.ctx g.slot g.prec g.age g.place.word 8 0 (BitVec.ofNat 64 (a - ((tabFind k.teams op.team).map (fun t => t.base * 128)).getD 0)) 0
          | none => s
        let s := match op.credit with
          | some (a, n) => if op.dead then s else s.creditBar core op.ctx g.slot g.prec g.age g.place.word (some a) n (op.error.isSome || hit.isSome)
          | none => s
        if op.near.isSome then s.wakeReason core 10 else s)

/-- MATCHECK_FAULT_DELIVERY (R276): a record that may issue takes its oldest pending delivery as a trapping fault. -/
def execMatcheckFaultDelivery (core slot rec' : Nat) (s : State) : Host.Outcome State Fault Refusal :=
  .next (match s.group core slot with
    | none => s
    | some g =>
      let q := g.prec rec'
      match q.state, q.matFaults with
      | .running, m :: ms =>
        let lanes := q.lanes &&& m.lanes
        let s := s.onPrec core slot rec' (fun q => { q with matFaults := ms })
        let s := if ms.isEmpty then s else s.push (.matcheckFaultDelivery core slot rec')
        if lanes = 0 then s
        else
          let s := s.onGroup core slot (fun g =>
            { g with faultaddr := m.addr, faultcode := BitVec.ofNat 64 (13 + lowestLane lanes * 2 ^ 8) })
          s.deliverTrap core slot rec' lanes q.place 13 m.log
      | _, _ => s)

/-! ### The bank multipliers (R212, R277, R278) -/

/-- Bytes of a tensor-space range of this module's HBM4E. -/
def State.nearRead (s : State) (core x : Nat) (ds : Descs) (p : Word64) (n : Nat) : Except (PortFault × Word64) (List Byte × State) :=
  (linePieces (ptrOff p) n).foldlM (fun (acc : List Byte × State) c =>
    let q := ptrWithOff p (ptrOff p + c.1)
    match acc.2.port core x q .read ds with
    | .error f => .error (f, q)
    | .ok (t, s) =>
      if paModule t.pa ≠ s.moduleId.toNat ∨ 768 * 2 ^ 30 ≤ paLocal t.pa then .error (.cls 3 0, q)
      else
        match s.ctlRead (paLine t.pa) with
        | .error c => .error (.cls c 0, q)
        | .ok d => .ok (acc.1 ++ lineBytes d (t.pa % 128) c.2, s)) ([], s)

/-- Rows of B. -/
def State.nearRows (s : State) (core : Nat) (x : Near) (b : Word64) (m : MmvShape) : Except (PortFault × Word64) (List (List Byte) × State) :=
  (List.range m.m).foldlM (fun (acc : List (List Byte) × State) i =>
    match acc.2.nearRead core x.ctx x.descs (ptrWithOff b (ptrOff b + i * m.pitch)) (2 * m.k) with
    | .error e => .error e
    | .ok (bs, s) => .ok (acc.1 ++ [bs], s)) ([], s)

/-- One running sum of an MMV (R212). -/
def mmvSum (k : Nat) (acc : Nat) (row vec : Nat) : Nat :=
  (List.range (k / 16)).foldl (fun acc ch =>
    chunk (.flt bf16Fmt) false 127 127 0 acc ((List.range 16).map (fun i => (rowElem 16 row (16 * ch + i), rowElem 16 vec (16 * ch + i))))) acc

/-- An MMV ends without results: its barrier is credited with ERR set. -/
def State.nearFail (s : State) (core j : Nat) (x : Near) (n cls : Nat) (addr : Word64) : State :=
  let g := x.round.sig
  let s := s.engineError core x.ctx g.slot g.prec g.age g.place.word cls 0 addr 0
  let s := s.onCore core (fun k => { k with nears := tabDel k.nears j })
  let s := if x.dead then s else s.creditBar core x.ctx g.slot g.prec g.age g.place.word x.bar n true
  s.wakeReason core 10

/-- An engine operation is held at a line for a translation, and the hold is reported (R196). -/
def State.reportHold (s : State) (core ctx slot prec age : Nat) (pc p : Word64) (malformed : Bool) : State :=
  s.engineError core ctx slot prec age pc 6 (if malformed then 1 else 0) p 0

/-- Cycles that an MMV takes at least, at the 4.0 GHz that no cluster exceeds (R234, R450). DEDUCED (log 181). -/
def mmvCycles (m : MmvShape) : Nat := max (ceilDiv (m.m * m.k * m.v) 1024) (ceilDiv (m.m * m.k) 800)

/-- Stacks that hold bytes of B, as far as its pages are present. The spec does not say which stack holds an address: a free
value of Config (log 183). -/
def State.nearStacks (s : State) (core : Nat) (x : Near) : List Nat :=
  let b := x.round.sig.vals.getD 2 0
  let m := mmvShape (x.round.sig.vals.getD 4 0)
  ((List.range m.m).flatMap (fun i => (linePieces (ptrOff b + i * m.pitch) (2 * m.k)).filterMap (fun c =>
    match s.port core x.ctx (ptrWithOff b (ptrOff b + i * m.pitch + c.1)) .read x.descs with
    | .ok (t, _) => some (Config.stackOf (paLine t.pa) % 12)
    | .error _ => none))).eraseDups

/-- The request of an MMV reached its stacks before another's; those of one cycle by core and slot: DESIGN CHOICE (log 183). -/
def nearFirst (a b : Nat × Nat × Near) : Bool :=
  match a.2.2.reached, b.2.2.reached with
  | some x, some y => x < y || (x == y && (a.1 < b.1 || (a.1 == b.1 && a.2.1 < b.2.1)))
  | some _, none => true
  | none, _ => false

/-- A stack still serves an MMV, of any core, whose request reached it earlier (R277). -/
def State.stackBusy (s : State) (core slot : Nat) (x : Near) : Bool :=
  let earlier := s.cores.flatMap (fun c => (c.2.nears.filter (fun y =>
    c.1 < 512 && !y.2.writing && y.2.hold.isNone && nearFirst (c.1, y.1, y.2) (core, slot, x))).map (fun y => (c.1, y.2)))
  !earlier.isEmpty && (let mine := s.nearStacks core x
    earlier.any (fun y => (s.nearStacks y.1 y.2).any mine.contains))

/-- The requests of MMVs that no operation on their tile holds back reach their stacks (R200, R277). -/
def State.nearsReach (s : State) : State :=
  { s with cores := s.cores.map (fun c => if 512 ≤ c.1 then c else (c.1, { c.2 with nears := c.2.nears.map (fun x =>
      if x.2.reached.isNone && !c.2.nearBlocked x.2 then (x.1, { x.2 with reached := some s.time }) else x) })) }

/-- An MMV of a core may have its results now (R200, R234, R278). -/
def State.nearReady (s : State) (core slot : Nat) (x : Near) : Bool :=
  let k := s.core core
  !s.stackBusy core slot x &&
  (512 ≤ core || x.round.time + mmvCycles (mmvShape (x.round.sig.vals.getD 4 0)) ≤ s.clockOf core) && !x.writing && x.hold.isNone && !k.nearBlocked x && (x.tile.isNone || (k.matrix.running.isNone && k.matrix.freeAt ≤ s.clockOf core))

/-- MMV_RESULTS_RETURN (R278): the sums return; a tile destination occupies the matrix engine for its write. -/
def execMmvResultsReturn (core slot : Nat) (uncorrectable : Bool) (s : State) : Host.Outcome State Fault Refusal :=
  .next (match tabFind (s.core core).nears slot with
    | none => s
    | some x =>
      if !s.nearReady core slot x then s
      else
        let vals := x.round.sig.vals
        let b := vals.getD 2 0
        let d1 := vals.getD 3 0
        let m := mmvShape (vals.getD 4 0)
        let n := m.m * m.v * 4
        if uncorrectable then s.nearFail core slot x n 19 b
        else
          match s.nearRows core x b m with
          | .error (.walk bad ls, p) =>
            let g := x.round.sig
            (s.onCore core (fun k => { k with nears := tabPut k.nears slot { x with hold := some ⟨p, ls⟩ } })).reportHold
              core x.ctx g.slot g.prec g.age g.place.word p bad
          | .error (.cls c _, p) => s.nearFail core slot x n c p
          | .error (.wait, _) => s
          | .ok (rows, s) =>
            let k := s.core core
            let base := ((tabFind k.teams x.team).map (fun t => t.base * 128)).getD 0
            let vec (v : Nat) : Nat := leNat (k.scratchRead (base + fieldOf d1 0 20 + v * (2 * m.k)) (2 * m.k))
            let cells := (List.range m.m).flatMap (fun i => (List.range m.v).map (fun v => (i, v)))
            let g := x.round.sig
            match x.tile with
            | some t =>
              let key (c : Nat × Nat) : Nat := t * tileElems + c.1 * 64 + c.2
              let writes := cells.map (fun c =>
                (key c, BitVec.ofNat 32 (mmvSum m.k (tabGet 0 k.tiles (key c)).toNat (leNat (rows.getD c.1 [])) (vec c.2))))
              let op : MatrixOp :=
                { run := none, ctx := x.ctx, launch := x.launch, team := x.team, dead := x.dead, near := some slot, round := x.round,
                  ends := s.clockOf core + ceilDiv (m.m * m.v) 256 - 1, tileWrites := writes, scratchWrites := [], events := [], tile := t,
                  credit := x.bar.map (fun a => (a, n)), error := none }
              s.setCore core { k with
                nears := tabPut k.nears slot { x with writing := true }
                matrix := { k.matrix with running := some op } }
            | none =>
              let out := base + fieldOf d1 20 20
              let writes := cells.map (fun c =>
                (out + 4 * (c.1 * m.v + c.2), leBytes 4 (mmvSum m.k 0 (leNat (rows.getD c.1 [])) (vec c.2))))
              let (k, hit) := if x.dead then (k, none) else k.engineWrites writes
              let s := s.setCore core { k with nears := tabDel k.nears slot }
              let s := match hit with
                | some a => s.engineError core x.ctx g.slot g.prec g.age g.place.word 8 0 (BitVec.ofNat 64 (a - base)) 0
                | none => s
              let s := if x.dead then s else s.creditBar core x.ctx g.slot g.prec g.age g.place.word x.bar n hit.isSome
              s.wakeReason core 10)

end Sys2Proof.Machine
end

