-- ==== Sys2Proof/Machine/Engine.lean ====
section
/-! DEFINITION. Sys2Proof/Machine/Engine.lean: the copy engines at work: line operations and what performing them does
(R196, R216, R217, R268–R271, R292), their sending within the module and to other modules (R385–R388), completion, and
the completions of lower-deck requests. -/

namespace Sys2Proof.Machine

/-! ### Sides of a piece -/

/-- A side some bytes on. -/
def CopyAddr.plus : CopyAddr → Nat → CopyAddr
  | .scratch a, n => .scratch (a + n)
  | .ptr p, n => .ptr (ptrWithOff p (ptrOff p + n))
  | .phys pa p, n => .phys (pa + n) (ptrWithOff p (ptrOff p + n))
  | .line pa m p, n => .line (pa + n) m (ptrWithOff p (ptrOff p + n))

/-- Pointer of a side that names objects or windows. -/
def CopyAddr.ptr? : CopyAddr → Option Word64
  | .scratch _ => none
  | .phys _ _ => none
  | .ptr p => some p
  | .line _ _ p => some p

/-- Byte position of a side, which fixes where it crosses 128-byte boundaries. -/
def CopyAddr.pos : CopyAddr → Nat
  | .scratch a => a
  | .ptr p => ptrOff p
  | .phys pa _ => pa
  | .line _ _ p => ptrOff p

/-- Why bytes of a side cannot be read or written. -/
inductive SideFault where
  /-- The engine holds at this pointer for a translation; malformed or not present (R196). -/
  | hold (h : Hold) (malformed : Bool)
  /-- An error of a class at an address. -/
  | cls (c : Nat) (p : Word64)
  /-- Neither: the die makes no new translation of the page yet, and the engine tries again (R378). -/
  | wait
  deriving DecidableEq, Repr

/-- A port fault at a pointer. -/
def PortFault.side (f : PortFault) (p : Word64) : SideFault :=
  match f with
  | .walk m ls => .hold ⟨p, ls⟩ m
  | .cls c _ => .cls c p
  | .wait => .wait

/-- Pieces of a range within units of u bytes: offset from the start, and length. -/
def unitPieces (u off n : Nat) : List (Nat × Nat) :=
  (List.range (if n = 0 then 0 else (off + n - 1) / u - off / u + 1)).map (fun i =>
    let lo := max off ((off / u + i) * u)
    let hi := min (off + n) ((off / u + i + 1) * u)
    (lo - off, hi - lo))

/-- Read bytes of a translated line of control or tensor space. -/
def State.xlatRead (s : State) (core x : Nat) (p : Word64) (t : Xlat) (n : Nat) : Except SideFault (List Byte × State) :=
  if ptrTag p = 1 then
    if !s.isLive (paModule t.pa) then .error (.cls 11 p)
    else
      match s.ctlRead (paLine t.pa) with
      | .error c => .error (.cls c p)
      | .ok d => .ok (lineBytes d (t.pa % 128) n, s)
  else
    match s.l2ReadAt core x p t (byteMask (ptrOff p % 128) n) false false with
    | .error f => .error (f.side p)
    | .ok (d, _, s) => .ok (lineBytes d (ptrOff p % 128) n, s)

/-- Read bytes of a pointer within one line. -/
def State.ptrRead (s : State) (core x : Nat) (p : Word64) (n : Nat) (ds : Descs := []) : Except SideFault (List Byte × State) :=
  if ptrTag p = 2 then .ok ((s.core (s.targetCore x p)).winRead (ptrWindow p) (ptrOff p) n, s)
  else
    match s.port core x p .read ds with
    | .error f => .error (f.side p)
    | .ok (t, s) => s.xlatRead core x p t n

/-- Read bytes of a side. -/
def State.sideRead (s : State) (core x : Nat) (a : CopyAddr) (n : Nat) (ds : Descs := []) : Except SideFault (List Byte × State) :=
  match a with
  | .scratch a => .ok ((s.core core).scratchRead a n, s)
  | .phys pa _ => .ok (s.rawBytes pa n, s)
  | .line pa m p => s.xlatRead core x p ⟨pa, 0, m⟩ n
  | .ptr p => (linePieces (ptrOff p) n).foldlM (fun (acc : List Byte × State) c => do
      let (bs, s) ← acc.2.ptrRead core x (ptrWithOff p (ptrOff p + c.1)) c.2 ds
      return (acc.1 ++ bs, s)) ([], s)

/-- What writing has done so far. -/
structure Wrote where
  /-- The state. -/
  s : State
  /-- Bytes written. -/
  n : Nat
  /-- First error: class and address. -/
  err : Option (Nat × Word64)
  /-- A line at which the engine holds. -/
  hold : Option (Hold × Bool)
  /-- A line waits for a translation (R378). -/
  wait : Bool

/-- Nothing written yet. -/
def Wrote.start (s : State) : Wrote := ⟨s, 0, none, none, false⟩

/-- An error. -/
def Wrote.fail (w : Wrote) (c : Nat) (p : Word64) : Wrote := { w with err := some (w.err.getD (c, p)) }

/-- A side fault. -/
def Wrote.side (w : Wrote) : SideFault → Wrote
  | .hold p m => { w with hold := some (p, m) }
  | .cls c p => w.fail c p
  | .wait => { w with wait := true }

/-- Bytes written into a state. -/
def Wrote.done (w : Wrote) (s : State) (n : Nat) : Wrote := { w with s := s, n := w.n + n }

/-- Write scratchpad bytes of a core but those of barrier objects (R177, R217). -/
def Wrote.intoScratch (w : Wrote) (core a : Nat) (bs : List Byte) (shown : Nat → Word64) : Wrote :=
  (unitPieces 16 a bs.length).foldl (fun w c =>
    let k := w.s.core core
    if k.barrierIn (a + c.1) c.2 then w.fail 8 (shown c.1)
    else w.done (w.s.setCore core (k.scratchWrite (a + c.1) ((bs.drop c.1).take c.2))) c.2) w

/-- Bytes of a .mark copy have been written into a register; it becomes FULL after the last (R216). -/
def State.markWritten (s : State) (core slot t g reg n : Nat) : State :=
  match tabFind (s.core core).copies slot with
  | none => s
  | some c =>
    let marks := c.marks.map (fun m => if m.1 = t ∧ m.2.1 = g ∧ m.2.2.1 = reg then (m.1, m.2.1, m.2.2.1, m.2.2.2 - n) else m)
    let full := marks.filter (fun m => m.2.2.2 = 0)
    let s := s.onCore core (fun k => { k with copies := tabMod k.copies slot (fun c => { c with marks := marks.filter (fun m => m.2.2.2 ≠ 0) }) })
    full.foldl (fun s m => s.setFull (s.coreOf c.ctx m.1) m.2.1 m.2.2.1) s

/-- Write bytes of a translated line of control or tensor space, for a group slot. -/
def Wrote.intoXlat (w : Wrote) (core x g : Nat) (p : Word64) (t : Xlat) (bs : List Byte) : Wrote :=
  if ptrTag p = 1 then
    if !w.s.isLive (paModule t.pa) then w.fail 11 p
    else
      match w.s.ctlWrite (paLine t.pa) (placeBytes (t.pa % 128) bs) (byteMask (t.pa % 128) bs.length) with
      | .error c => w.fail c p
      | .ok s => w.done s bs.length
  else
    let off := ptrOff p % 128
    let n := if w.s.isSync (w.s.homeRef t.ref).line then min bs.length (8 - off) else bs.length
    let w := if n = 0 then w
      else
        match (w.s.controlWrite core x g p).l2WriteAt core x p t (placeBytes off bs) (byteMask off n) false with
        | .error f => w.side (f.side p)
        | .ok (_, s) => w.done s n
    if n < bs.length then w.fail 4 p else w

/-- Write bytes of a pointer within one line, for a copy slot of a core and a group slot. -/
def Wrote.intoPtr (w : Wrote) (core x slot g : Nat) (p : Word64) (bs : List Byte) (ds : Descs := []) : Wrote :=
  if ptrTag p = 2 then
    let t := w.s.targetCore x p
    let off := ptrOff p
    match ptrWindow p with
    | 1 =>
      if (w.s.core t).windowValid 1 off bs.length then w.intoScratch t off bs (fun i => ptrWithOff p (off + i)) else w.done w.s bs.length
    | 0 =>
      let s := w.s.onCore t (fun k => k.winWrite 0 off bs)
      w.done (s.markWritten core slot (ptrCore p) (off >>> 15) ((off >>> 7) % 256) bs.length) bs.length
    | v => w.done (w.s.onCore t (fun k => k.winWrite v off bs)) bs.length
  else
    match w.s.port core x p .write ds with
    | .error f => w.side (f.side p)
    | .ok (t, s) => ({ w with s := s } : Wrote).intoXlat core x g p t bs

/-- Write bytes of a side. -/
def Wrote.intoSide (w : Wrote) (core x slot g base : Nat) (a : CopyAddr) (bs : List Byte) : Wrote :=
  match a with
  | .scratch a => w.intoScratch core a bs (fun i => BitVec.ofNat 64 (a + i - base))
  | .phys pa p =>
    if !w.s.isLive (paModule pa) then w.fail 11 p
    else
      match w.s.ctlWrite (paLine pa) (placeBytes (pa % 128) bs) (byteMask (pa % 128) bs.length) with
      | .error c => w.fail c p
      | .ok s => w.done s bs.length
  | .line pa m p => w.intoXlat core x g p ⟨pa, 0, m⟩ bs
  | .ptr p => (linePieces (ptrOff p) bs.length).foldl (fun w c =>
      w.intoPtr core x slot g (ptrWithOff p (ptrOff p + c.1)) ((bs.drop c.1).take c.2)) w

/-! ### Copies in their slots -/

/-- Change a copy. -/
def State.onCopy (s : State) (core slot : Nat) (f : Copy → Copy) : State :=
  s.onCore core (fun k => { k with copies := tabMod k.copies slot f })

/-- A copy. -/
def State.copy (s : State) (core slot : Nat) : Option Copy := tabFind (s.core core).copies slot

/-- Change a line operation in flight. -/
def Copy.onFly (c : Copy) (seq : Nat) (f : FlyOp → FlyOp) : Copy :=
  { c with flying := c.flying.map (fun o => if o.seq = seq then f o else o) }

/-- Cycle of admission of the group that a copy is attributed to; it stays while its copies run. -/
def State.ageOf (s : State) (core slot : Nat) : Nat := ((s.group core slot).map Group.age).getD 0

/-- A copy is held at a pointer; the hold is reported (R196). -/
def State.holdCopy (s : State) (core slot : Nat) (h : Hold) (malformed : Bool) : State :=
  match s.copy core slot with
  | none => s
  | some c =>
    (s.onCopy core slot (fun c => { c with hold := some h })).reportHold core c.ctx c.slot c.prec (s.ageOf core c.slot) c.pc h.ptr malformed

/-- Snapshot entries of a DRAIN that have sent every line and had every line acknowledged are DONE and free (R437). -/
def State.freeSnapshots (s : State) (core slot : Nat) : State :=
  let flying := ((s.copy core slot).map (fun c => c.flying.filterMap (fun o => o.op.snapLine))).getD []
  { s with migs := s.migs.map (fun e =>
      if e.2.owner = some (core, slot) ∧ e.2.ptr = e.2.lines ∧
          flying.all (fun l => l < e.2.src / 128 || e.2.src / 128 + e.2.lines ≤ l) then
        (e.1, { e.2 with en := false, done := true, owner := none, early := [] })
      else e) }

/-- The instruction is DRAIN. -/
def isDrain (i : Instr) : Bool := match i with | .drain _ => true | _ => false

/-- A copy completes (R270): its errors are reported, its marked registers are FULL, its barrier is credited and its slot
is free. -/
def State.completeCopy (s : State) (core slot : Nat) : State :=
  match s.copy core slot with
  | none => s
  | some c =>
    let age := s.ageOf core c.slot
    let s := match c.error with
      | some (k, p) => s.engineError core c.ctx c.slot c.prec age c.pc k 0 p c.written
      | none => s
    let s := c.marks.foldl (fun s m => s.setFull (s.coreOf c.ctx m.1) m.2.1 m.2.2.1) s
    let s := s.creditBar core c.ctx c.slot c.prec age c.pc c.bar c.credit c.error.isSome
    let s := s.onCore core (fun k => { k with copies := tabDel k.copies slot })
    (s.wakeReason core 10).progress core c.slot

/-- A copy whose operations are all done completes. -/
def State.checkCopy (s : State) (core slot : Nat) : State :=
  match s.copy core slot with
  | none => s
  | some c =>
    if c.todo.isEmpty && c.flying.isEmpty && !c.waitFull && !c.waitDrain then s.completeCopy core slot else s

/-- A line operation has ended: bytes written, and its error. -/
def State.endFly (s : State) (core slot seq n : Nat) (err : Option (Nat × Word64)) : State :=
  let s := s.onCopy core slot (fun c =>
    { c with
      flying := c.flying.filter (fun o => o.seq != seq)
      written := c.written + n
      error := match c.error with
        | some e => some e
        | none => err })
  let s := s.freeSnapshots core slot
  match s.copy core slot with
  | none => s
  | some c => (s.checkCopy core slot).tensorProgress core c.slot

/-- Address that an operation shows in an error found at its destination or on its way. -/
def LineOp.dstPtr (o : LineOp) (base : Nat) : Word64 :=
  match o.pieces with
  | [] => 0
  | p :: _ =>
    match p.dst with
    | .scratch a => BitVec.ofNat 64 (a - base)
    | .ptr q => q
    | .phys _ q => q
    | .line _ _ q => q

/-- Core address of a team's scratchpad. -/
def State.teamBase (s : State) (core team : Nat) : Nat := ((tabFind (s.core core).teams team).map (fun t => t.base * 128)).getD 0

/-- Read the pieces of an operation. -/
def State.readPieces (s : State) (core x : Nat) (ps : List Piece) : Except SideFault (List (List Byte) × State) :=
  ps.foldlM (fun (acc : List (List Byte) × State) p => do
    let (bs, s) ← acc.2.sideRead core x p.src p.n
    return (acc.1 ++ [bs], s)) ([], s)

/-- Write the pieces of an operation. -/
def State.writePieces (s : State) (core slot : Nat) (c : Copy) (ps : List Piece) (data : List (List Byte)) : Wrote :=
  let base := s.teamBase core c.team
  (ps.zip data).foldl (fun w e => w.intoSide core c.ctx slot c.slot base e.1.dst e.2) (Wrote.start s)

/-- Perform the write of an operation whose bytes are known. -/
def State.performWrite (s : State) (core slot seq : Nat) (c : Copy) (o : LineOp) (data : List (List Byte)) : State :=
  let w := s.writePieces core slot c o.pieces data
  if w.wait then s
  else match w.hold with
  | some (p, m) => (w.s.onCopy core slot (fun c => c.onFly seq (fun f => { f with data := some data, tags := [], held := true }))).holdCopy core slot p m
  | none => w.s.endFly core slot seq w.n w.err

/-- Perform an operation within the module: read, then write. -/
def State.performOp (s : State) (core slot : Nat) (c : Copy) (f : FlyOp) : State :=
  match f.data with
  | some data => s.performWrite core slot f.seq c f.op data
  | none =>
    match s.readPieces core c.ctx f.op.pieces with
    | .ok (data, s) => s.performWrite core slot f.seq c f.op data
    | .error (.hold p m) => (s.onCopy core slot (fun c => c.onFly f.seq (fun f => { f with held := true }))).holdCopy core slot p m
    | .error (.cls k p) => s.endFly core slot f.seq 0 (some (k, p))
    | .error .wait => s

/-! ### Sending (R385–R388) -/

/-- An entry of a context's window table. -/
def State.window (s : State) (x peer : Nat) : Window := tabGet Window.reset s.windows (x * 256 + peer)
/-- Replace an entry. -/
def State.setWindow (s : State) (x peer : Nat) (w : Window) : State := { s with windows := tabSet Window.reset s.windows (x * 256 + peer) w }

/-- Another module's memory that a side names: its physical address; none for a side of this module. -/
def State.remoteSide (s : State) (core x : Nat) (a : CopyAddr) (k : Kind) (ds : Descs := []) : Except SideFault (Option Nat × State) :=
  let far (pa : Nat) (p : Word64) (s : State) : Except SideFault (Option Nat × State) :=
    if paModule pa = s.moduleId.toNat then .ok (none, s)
    else if !s.isLive (paModule pa) then .error (.cls 11 p)
    else .ok (some pa, s)
  match a with
  | .scratch _ => .ok (none, s)
  | .phys pa p => if k = .read then .ok (none, s) else far pa p s
  | .line pa _ p => if ptrTag p = 1 then far pa p s else .ok (none, s)
  | .ptr p =>
    if ptrTag p = 1 then
      match s.port core x p k ds with
      | .error f => .error (f.side p)
      | .ok (t, s) => far t.pa p s
    else .ok (none, s)

/-- Bytes that an operation reads or writes in one line of another module (R381). -/
structure FarLine where
  /-- Pointer of the first of its pieces there. -/
  ptr : Word64
  /-- Their mask. -/
  mask : ByteMask
  /-- What is written. -/
  data : Line
  deriving DecidableEq, Repr

/-- Pointer of a side. -/
def CopyAddr.word : CopyAddr → Word64
  | .scratch a => BitVec.ofNat 64 a
  | .ptr p => p
  | .phys _ p => p
  | .line _ _ p => p

/-- The lines of other modules that sides of some lengths name, in ascending order, with the bytes to be written there. -/
def State.farLines (s : State) (core x : Nat) (k : Kind) (ps : List (CopyAddr × Nat × List Byte)) :
    Except SideFault (Table FarLine × State) :=
  ps.foldlM (fun (acc : Table FarLine × State) p =>
    match acc.2.remoteSide core x p.1 k with
    | .error e => .error e
    | .ok (none, s) => .ok (acc.1, s)
    | .ok (some pa, s) =>
      let f : FarLine := (tabFind acc.1 (paLine pa)).getD ⟨p.1.word, 0, 0⟩
      let m := byteMask (pa % 128) p.2.1
      .ok (tabPut acc.1 (paLine pa) { f with mask := f.mask ||| m, data := mergeLine f.data (placeBytes (pa % 128) p.2.2) m }, s)) ([], s)

/-- Bytes of an operation. -/
def LineOp.bytes (o : LineOp) : Nat := (o.pieces.map Piece.n).foldl (· + ·) 0

/-- The first byte of a mask. -/
def firstByte (m : ByteMask) : Nat := ((List.range 128).find? (fun i => m.getLsbD i)).getD 0

/-- Bytes of a mask. -/
def maskCount (m : ByteMask) : Nat := popCount 128 m.toNat

/-- A gang command has stopped the injection of a context's job (R397, R407), or its restore is not complete (R405). -/
def State.injectionStopped (s : State) (x : Nat) : Bool :=
  s.quiet || s.stopped.contains (s.ctx x).job.toNat || ((s.ctx x).away && (s.ctx x).rreq)

/-- Place a request in flight: it is charged, has its deadline, and its packet enters the router. -/
def State.sendLower (s : State) (tag : Nat) (r : LowerReq) (c : Chan) (opc : Nat) (payload : List Byte) : State :=
  let w := s.window r.ctx r.peer
  let router := s.spanRouter (spanOf r.pa)
  let p := packetOf s.moduleId.toNat ⟨r.peer, c, 63, Config.opcode opc, (s.ctx r.ctx).job.toNat, r.ctx, r.pa, tag, r.mask⟩ payload
  let s := s.setWindow r.ctx r.peer { w with out := w.out + r.bytes }
  let s := { s with lower := tabPut s.lower tag { r with sent := some s.ptime, deadline := s.ptime + BitVec.ofNat 64 s.fto } }
  s.inject router c p

/-- A request may be sent now: its window and its router's buffer have room and injection is not stopped. -/
def State.mayLower (s : State) (x peer bytes pa payload : Nat) (c : Chan) : Bool :=
  let w := s.window x peer
  !s.injectionStopped x && w.out + bytes ≤ w.win && s.injectRoom (s.spanRouter (spanOf pa)) c ⟨0, List.replicate payload 0⟩

/-- What becomes of an operation that is to be sent: it waits for a peer's window, or not. -/
abbrev SendResult := State × Option (Nat × Nat)

/-- An operation cannot be sent: the engine holds, or it fails. -/
def State.sendFault (s : State) (core slot seq : Nat) : SideFault → SendResult
  | .hold p m => (s.holdCopy core slot p m, none)
  | .cls k p => (s.endFly core slot seq 0 (some (k, p)), none)
  | .wait => (s, none)

/-- Send requests for an operation, one for each line of another module, when all of them may be sent; the context and the peer
of the first that must wait otherwise. -/
def State.sendFar (s : State) (core slot : Nat) (c : Copy) (f : FlyOp) (reads : Bool) (ls : Table FarLine) : SendResult :=
  let send (acc : State × Option (Nat × Nat)) (l : Nat × FarLine) : State × Option (Nat × Nat) :=
    match acc.2 with
    | some _ => acc
    | none =>
      let s := acc.1
      let n := maskCount l.2.mask
      let pa := l.1 * 128 + firstByte l.2.mask
      let ch := if reads then 1 else 0
      if s.mayLower c.ctx (paModule pa) n pa (if reads then 0 else n) ch then
        let tag := s.nextTag
        let s : State := { (s.onCopy core slot (fun c => c.onFly f.seq (fun f => { f with tags := f.tags ++ [tag], held := false }))) with nextTag := tag + 1 }
        (s.sendLower tag ⟨core, c.ctx, paModule pa, n, reads, pa, l.2.mask, l.2.ptr, .copy slot, none, 0⟩ ch ch
          (if reads then [] else maskBytes l.2.mask l.2.data), none)
      else (s, some (c.ctx, paModule pa))
  match ls.foldl send (s, none) with
  | (t, none) => (t, none)
  | (_, some b) => (s, some b)

/-- Send an operation's write: to another module, or as one to be acknowledged within the module. -/
def State.sendWrite (s : State) (core slot : Nat) (c : Copy) (f : FlyOp) (data : Option (List (List Byte))) : SendResult :=
  match s.farLines core c.ctx .write (f.op.pieces.map (fun p => (p.dst, p.n, []))) with
  | .error e => s.sendFault core slot f.seq e
  | .ok ([], s) =>
    ((s.onCopy core slot (fun c => c.onFly f.seq (fun f => { f with data := data, held := false }))).enqueue [.copyLineAck core slot .done], none)
  | .ok (_, s) =>
    let known : Except SideFault (List (List Byte) × State) :=
      match data with
      | some d => .ok (d, s)
      | none => s.readPieces core c.ctx f.op.pieces
    match known with
    | .error e => s.sendFault core slot f.seq e
    | .ok (d, s) =>
      let s := s.onCopy core slot (fun c => c.onFly f.seq (fun f => { f with data := some d }))
      match s.farLines core c.ctx .write ((f.op.pieces.zip d).map (fun e => (e.1.dst, e.1.n, e.2))) with
      | .error e => s.sendFault core slot f.seq e
      | .ok (ls, s) => s.sendFar core slot c f false ls

/-- Send an operation: its reads to other modules, or its write. -/
def State.sendFly (s : State) (core slot : Nat) (c : Copy) (f : FlyOp) : SendResult :=
  match f.data with
  | some d => s.sendWrite core slot c f (some d)
  | none =>
    match s.farLines core c.ctx .read (f.op.pieces.map (fun p => (p.src, p.n, []))) with
    | .error e => s.sendFault core slot f.seq e
    | .ok ([], s) => s.sendWrite core slot c f none
    | .ok (ls, s) => s.sendFar core slot c f true ls

/-- Operations of an engine that wait to be sent, in issue order: issue number, core, copy slot. -/
def State.heldOps (s : State) (engine : Nat) : List (Nat × Nat × Nat) :=
  let all := [0, 1, 2, 3].flatMap (fun i => (s.core (4 * engine + i)).copies.flatMap (fun c =>
    (c.2.flying.filter FlyOp.held).map (fun f => (f.seq, 4 * engine + i, c.1))))
  all.foldl (fun l e => l.takeWhile (fun x => x.1 < e.1) ++ [e] ++ l.dropWhile (fun x => x.1 < e.1)) []

/-- The instruction is TCPO. -/
def isTcpo (i : Instr) : Bool := match i with | .tcpo _ => true | _ => false

/-- Two operations write a common byte of one object or window. -/
def LineOp.meets (o p : LineOp) : Bool :=
  o.pieces.any (fun a => p.pieces.any (fun b =>
    match a.dst.ptr?, b.dst.ptr? with
    | some x, some y => decide (x >>> 40 = y >>> 40 ∧ ptrOff x < ptrOff y + b.n ∧ ptrOff y < ptrOff x + a.n)
    | _, _ => false))

/-- An operation waits for earlier ones of its copy: all of them where its sides overlap (R219), those of a TCPO that write a
byte it writes (R215). -/
def Copy.behind (c : Copy) (f : FlyOp) : Bool :=
  (c.serial && (c.flying.head?.map (fun g => g.seq != f.seq)).getD false) ||
    (isTcpo c.instr && c.flying.any (fun g => g.seq < f.seq && g.op.meets f.op))

/-- Send what an engine's holding buffer may send, in issue order for each peer (R388). -/
def State.sendHeld (s : State) (engine : Nat) : State :=
  ((s.heldOps engine).foldl (fun (acc : State × List (Nat × Nat)) e =>
    let (s, blocked) := acc
    match s.copy e.2.1 e.2.2 with
    | none => acc
    | some c =>
      match c.flying.find? (fun f => f.seq = e.1) with
      | none => acc
      | some f =>
        -- a peer with an earlier operation waiting takes no later one
        let peers := f.op.pieces.flatMap (fun p => [p.src, p.dst])
        let waits := blocked.any (fun b => b.1 == c.ctx && peers.any (fun a =>
          match s.remoteSide e.2.1 c.ctx a .read with
          | .ok (some pa, _) => paModule pa == b.2
          | _ => false))
        if c.hold.isSome || c.behind f || waits then acc
        else
          match s.sendFly e.2.1 e.2.2 c f with
          | (s, some b) => (s, b :: blocked)
          | (s, none) => (s, blocked)) (s, [])).1

/-- COPY_LINE_ACK (R270): the oldest operation of a copy within the module is acknowledged at its destination, or fails. -/
def execCopyLineAck (core slot : Nat) (outcome : AckOutcome) (s : State) : Host.Outcome State Fault Refusal :=
  .next (match s.copy core slot with
    | none => s
    | some c =>
      match c.flying.find? (fun f => !f.held && f.tags.isEmpty) with
      | none => s
      | some f =>
        let s := match outcome with
          | .failed k => s.endFly core slot f.seq 0 (some (k, f.op.dstPtr (s.teamBase core c.team)))
          | .done =>
            if c.hold.isSome then s.onCopy core slot (fun c => c.onFly f.seq (fun f => { f with held := true }))
            else s.performOp core slot c f
        s.sendHeld (core / 4))

/-! ### Arbitration (R269) -/

/-- Operations that a holding buffer holds at most (R388). -/
def holdingMax : Nat := 64

/-- A copy contends in a round that began at a cycle. -/
def Copy.contends (c : Copy) (start : Nat) : Bool :=
  c.time < start && c.hold.isNone && !c.waitFull && !c.waitDrain && !c.todo.isEmpty

/-- An accepted DRAIN with lines to issue: it runs on while its context is away (R439). -/
def Copy.draining (c : Copy) : Bool := isDrain c.instr && !c.waitDrain && !c.todo.isEmpty

/-- A contender: the core that holds its record, its slot, and the copy. -/
abbrev Contender := Nat × Nat × Copy

/-- The core of the module whose turn serves a core's copies: of a part that is away, the core that it left. -/
def State.servedBy (s : State) (c : Nat) : Nat := if c < 512 then c else physCore (s.ctx (c / 512 - 1)).cmap (c % 512)

/-- Contenders of a core of the module. Of a context that leaves its cores, or has left them, only its accepted DRAINs contend
(R338, R437, R439). -/
def State.contenders (s : State) (core start : Nat) : List Contender :=
  (s.cores.filter (fun c => s.servedBy c.1 == core)).flatMap (fun c =>
    (c.2.copies.filter (fun y => y.2.contends start && ((c.1 < 512 && (s.ctx y.2.ctx).state == .resident) || y.2.draining))).map
      (fun y => (c.1, y.1, y.2)))

/-- The next contender in acceptance order after the one served last. -/
def State.nextContender (s : State) (core start : Nat) : Option Contender :=
  let best (cs : List Contender) : Option Contender :=
    cs.foldl (fun b c => match b with | none => some c | some d => if c.2.2.order < d.2.2.order then some c else some d) none
  let cs := s.contenders core start
  match best (cs.filter (fun c => (s.core core).rotate < c.2.2.order)) with
  | some c => some c
  | none => best cs

/-- Where the engine's next operation comes from: the round after it, and the core. `fuel` bounds the cores looked at. -/
def State.nextTurn (s : State) (engine : Nat) (r : EngineRound) : Nat → Option (EngineRound × Nat)
  | 0 => none
  | fuel + 1 =>
    let core := 4 * engine + r.core
    let next : EngineRound := if r.core = 3 then ⟨s.time, 0, none⟩ else { r with core := r.core + 1, left := none }
    let cs := s.contenders core r.start
    match r.left with
    | some 0 => s.nextTurn engine next fuel
    | some (n + 1) => if cs.isEmpty then s.nextTurn engine next fuel else some ({ r with left := some n }, core)
    | none =>
      if cs.isEmpty then s.nextTurn engine next fuel
      else some ({ r with left := some ((cs.map (fun c => c.2.2.weight)).foldl max 0 - 1) }, core)

/-- A piece cut where either side crosses a line of an object: the offset of each part, and its bytes. -/
def Piece.parts (p : Piece) : List (Nat × Nat) :=
  let starts (a : CopyAddr) : List Nat :=
    match a with
    | .ptr q => if ptrTag q < 2 then (linePieces (ptrOff q) p.n).map Prod.fst else [0]
    | _ => [0]
  let cs := (starts p.src ++ starts p.dst).foldl (fun l c => insertAsc c l) []
  (cs.zip (cs.drop 1 ++ [p.n])).map (fun c => (c.1, c.2 - c.1))

/-- A side within one line, translated (R353, R354). -/
def State.landSide (s : State) (core x : Nat) (ds : Descs) (a : CopyAddr) (k : Kind) : Except SideFault (CopyAddr × State) :=
  match a with
  | .ptr q =>
    if 1 < ptrTag q then .ok (a, s)
    else
      match s.port core x q k ds with
      | .error f => .error (f.side q)
      | .ok (t, s) => .ok (.line t.pa t.mirror q, s)
  | _ => .ok (a, s)

/-- A line operation with its sides translated, as it is issued: an access translated here completes at that address, whatever its
descriptor, its table and PKR are by then (R196, R349, R353, R354). -/
def State.landOp (s : State) (core x : Nat) (ds : Descs) (o : LineOp) : Except SideFault (LineOp × State) := do
  let parts := o.pieces.flatMap (fun p => p.parts.map (fun c => (⟨p.src.plus c.1, p.dst.plus c.1, c.2⟩ : Piece)))
  let (ps, s) ← parts.foldlM (fun (acc : List Piece × State) p => do
    let (a, s) ← acc.2.landSide core x ds p.src .read
    let (b, s) ← s.landSide core x ds p.dst .write
    return (acc.1 ++ [⟨a, b, p.n⟩], s)) ([], s)
  return (⟨ps⟩, s)

/-- Bytes of the pieces of an operation, cut as its pieces are. -/
def LineOp.cutData (o : LineOp) (data : List (List Byte)) : List (List Byte) :=
  (o.pieces.zip data).flatMap (fun e => e.1.parts.map (fun c => (e.2.drop c.1).take c.2))

/-- Key of the snapshot entry of a DRAIN's next line. -/
def State.snapKey (s : State) (core slot l : Nat) : Option Nat :=
  (s.migs.find? (fun e => e.2.owner = some (core, slot) && e.2.en && e.2.mode && e.2.src / 128 + e.2.ptr == l)).map Prod.fst

/-- Issue the next line operation of a copy in the turn of a core of the module. -/
def State.issueOp (s : State) (turn core slot : Nat) (c : Copy) : State :=
  match c.todo with
  | [] => s
  | o :: rest =>
    let s := s.onCore turn (fun k => { k with rotate := c.order })
    match o.snapLine with
    | some l =>
      match s.snapKey core slot l with
      | some key => ((s.snapStep key).freeSnapshots core slot).checkCopy core slot
      | none => (s.onCopy core slot (fun c => { c with todo := rest })).checkCopy core slot
    | none =>
      match s.landOp core c.ctx c.descs o with
      | .error .wait => s
      | .error (.hold p m) => s.holdCopy core slot p m
      | .error (.cls k p) =>
        (s.onCopy core slot (fun c => { c with todo := rest, taken := c.taken.tail, error := some (c.error.getD (k, p)) })).checkCopy core slot
      | .ok (placed, s) =>
        { (s.onCopy core slot (fun c => { c with
            todo := rest
            flying := c.flying ++ [⟨placed, ((c.taken.head?).getD none).map o.cutData, s.nextTag, [], true⟩]
            taken := c.taken.tail })) with
          nextTag := s.nextTag + 1 }

/-- Copy engines of the module; engines of higher numbers stand for those of contexts that are away, and only send what
was issued before (R271). -/
def engineCount : Nat := 128

/-- Operations that wait in an engine's holding buffer for their window: not those that a translation holds, or that wait for an
earlier operation of their copy (R388). -/
def State.bufferOps (s : State) (engine : Nat) : List (Nat × Nat × Nat) :=
  (s.heldOps engine).filter (fun e =>
    match s.copy e.2.1 e.2.2 with
    | none => false
    | some c => c.hold.isNone && !c.flying.any (fun f => f.seq == e.1 && c.behind f))

/-- ENGINE_ARBITRATION_ROUND (R269): an engine's cycle: at most one line operation is issued. -/
def execEngineArbitrationRound (engine : Nat) (s : State) : Host.Outcome State Fault Refusal :=
  let s := s.sendHeld engine
  .next (if engineCount ≤ engine ∨ holdingMax ≤ (s.bufferOps engine).length then s
    else
      match s.nextTurn engine ((tabFind s.engines engine).getD ⟨s.time, 0, none⟩) 9 with
      | none => { s with engines := tabDel s.engines engine }
      | some (r, core) =>
        let s := { s with engines := tabPut s.engines engine r }
        match s.nextContender core r.start with
        | none => s
        | some (held, slot, c) => ((s.issueOp core held slot c).sendHeld (held / 4)))

/-! ### Lower-deck completions (R386, R388) -/

/-- OnCompletion of R388. -/
def Window.complete (w : Window) (bytes : Nat) (t : Nat) (now : Word64) : Window :=
  let w := { w with out := w.out - bytes, eack := w.eack + bytes, base := min w.base t, emin := min w.emin t }
  if w.win ≤ w.eack ∧ w.base ≤ (now - w.estart).toNat then
    let win := if 2 * w.emin < 3 * w.base then min (w.win + 4096) 1048576
      else if 3 * w.base < 2 * w.emin then max (w.win / 512 * 256) 4096 else w.win
    { w with win := win, eack := 0, emin := 0xFFFFFFFF, estart := now }
  else w

/-- An ATT lane that has returned: its value, or its refusal at the memory port (R191). -/
def State.attReturns (s : State) (core id lane : Nat) (r : Except (Nat × Word64) (BitVec 128)) : State :=
  match tabFind (s.core core).accs id with
  | none => s
  | some a =>
    let mine := a.lanes.filter (fun l => l.lane = lane)
    let rest := a.lanes.filter (fun l => l.lane ≠ lane)
    let a' := { a with
      lanes := rest
      performed := rest.isEmpty
      results := a.results ++ (match r with | .ok v => [(lane, v)] | .error _ => []) }
    let s := if rest.isEmpty then s.deliverAccess core id a' else s.onCore core (fun k => { k with accs := tabPut k.accs id a' })
    match r with
    | .ok _ => s
    | .error c =>
      let all := if runsOnce a.instr then (s.group core a.slot).map (fun g => g.guardMask 0 &&& (g.prec a.prec).lanes) else none
      s.raisePort core a.slot a.place all (mine.map (fun l => ({ l with ptr := c.2 }, PortFault.cls c.1 0)))

/-- The atomic of an ATT lane is performed at its destination, where it was translated: its old value. -/
def State.attPerform (s : State) (core id lane pa : Nat) : Except Nat (BitVec 128) × State :=
  match tabFind (s.core core).accs id with
  | none => (.error 14, s)
  | some a =>
    match memOpOf a.instr, a.lanes.find? (fun l => l.lane = lane) with
    | some o, some l =>
      match s.tensorAtomicAt o pa l.data with
      | .ok (v, s) => (.ok v, s)
      | .error f => (.error f.kind.1, s)
    | _, _ => (.error 14, s)

/-- The operation of a copy that a tag serves. -/
def State.flyOf (s : State) (core slot tag : Nat) : Option (Copy × FlyOp) :=
  (s.copy core slot).bind (fun c => (c.flying.find? (fun f => f.tags.contains tag)).map (fun f => (c, f)))

/-- A request of a copy has been performed at its destination; after the last one a read's bytes have returned, or its write is
done. -/
def State.copyReturns (s : State) (core slot tag : Nat) (reads : Bool) : State :=
  match s.flyOf core slot tag with
  | none => s
  | some (c, f) =>
    if f.tags != [tag] then s.onCopy core slot (fun c => c.onFly f.seq (fun f => { f with tags := f.tags.filter (· != tag) }))
    else if reads then
      match s.readPieces core c.ctx f.op.pieces with
      | .ok (d, s) => s.onCopy core slot (fun c => c.onFly f.seq (fun f => { f with data := some d, tags := [], held := true }))
      | .error (.hold p m) => (s.onCopy core slot (fun c => c.onFly f.seq (fun f => { f with tags := [], held := true }))).holdCopy core slot p m
      | .error (.cls k p) => s.endFly core slot f.seq 0 (some (k, p))
      | .error .wait => s
    else s.performWrite core slot f.seq c f.op (f.data.getD [])

/-- A request of a copy ends in an error. -/
def State.copyRefused (s : State) (core slot tag cls : Nat) (p : Word64) : State :=
  match s.flyOf core slot tag with
  | none => s
  | some (_, f) => s.endFly core slot f.seq 0 (some (cls, p))

/-- Operation of an ATT (R165). -/
def State.attCode (s : State) (core id : Nat) : Nat := (((tabFind (s.core core).accs id).bind (fun a => memOpOf a.instr)).map MemOp.code).getD 0

/-- Operand bytes of an ATT lane; .cas carries cmp, then val. -/
def State.attPayload (s : State) (r : LowerReq) : List Byte :=
  match r.kind with
  | .att id lane =>
    match (tabFind (s.core r.core).accs id).bind (fun a => a.lanes.find? (fun l => l.lane = lane)) with
    | some l => leBytes (if s.attCode r.core id = 1 then 2 * r.bytes else r.bytes) l.data.toNat
    | none => []
  | _ => []

/-- OPC of an ATT lane's request. -/
def State.attOpc (s : State) (r : LowerReq) : Nat :=
  match r.kind with
  | .att id _ => 16 + s.attCode r.core id
  | _ => 0

/-- ATT requests that wait for their window, in issue order for each peer (R388). -/
def State.sendAtts (s : State) : State :=
  ((s.lower.filter (fun r => r.2.sent.isNone)).foldl (fun (acc : State × List (Nat × Nat)) e =>
    let (s, blocked) := acc
    let r := e.2
    if blocked.contains (r.ctx, r.peer) then acc
    else if s.mayLower r.ctx r.peer r.bytes r.pa (s.attPayload r).length 0 then (s.sendLower e.1 r 0 (s.attOpc r) (s.attPayload r), blocked)
    else (s, (r.ctx, r.peer) :: blocked)) (s, [])).1

end Sys2Proof.Machine
end

