-- ==== Sys2Proof/Machine/Copies.lean ====
section
/-! DEFINITION. Sys2Proof/Machine/Copies.lean: the issue of the copy instructions (R213–R220, R268), holds at acceptance
(R216, R220) and the snapshot entries of DRAIN (R435–R437). -/

namespace Sys2Proof.Machine

/-! ### Line operations (R268) -/

/-- What a copy is to do. -/
structure CopyPlan where
  /-- Its line operations. -/
  ops : List LineOp
  /-- D and the barrier's credit. -/
  count : Nat
  /-- Bytes that a later element of the same copy overwrites, counted as written. -/
  hidden : Nat
  /-- Source and destination overlap. -/
  serial : Bool
  deriving DecidableEq, Repr

/-- Cut pieces at every 128-byte boundary of one side, and gather the pieces of a line into one operation. -/
def cutPieces (side : Piece → CopyAddr) (ps : List Piece) : List LineOp :=
  let parts := ps.flatMap (fun p => (unitPieces 128 (side p).pos p.n).map (fun c => (⟨p.src.plus c.1, p.dst.plus c.1, c.2⟩ : Piece)))
  let line (p : Piece) : Nat := (side p).pos / 128
  let groups := parts.foldl (fun (acc : List (List Piece)) p =>
    match acc with
    | (q :: g) :: gs => if line q = line p then (q :: g ++ [p]) :: gs else [p] :: (q :: g) :: gs
    | gs => [p] :: gs) []
  groups.reverse.map LineOp.mk

/-- An address is in the issuing core's own scratchpad. -/
def State.ownScratch (s : State) (e : Iss) : CopyAddr → Bool
  | .scratch _ => true
  | .ptr p => ptrTag p == 2 && ptrWindow p == 1 && s.targetCore e.g.ctx p == e.core
  | .phys _ _ => false
  | .line _ _ _ => false

/-- The cut side is the source. -/
def State.cutSource (s : State) (e : Iss) (src dst : CopyAddr) : Bool := !s.ownScratch e src && s.ownScratch e dst

/-! ### Checks of a side (R42) -/

/-- Fault class of a pointer's range; register-window ranges are checked register by register. -/
def State.ptrCheck (s : State) (e : Iss) (p : Word64) (n align : Nat) (kind : Kind) : Option Nat × State :=
  let chk (s : State) (p : Word64) (n align : Nat) (sp : Space) := s.checkAddress e.core e.g.ctx e.g.team p false n align sp kind false
  match ptrTag p with
  | 0 => chk s p n align .control
  | 1 => chk s p n align .tensor
  | 2 =>
    if ptrOff p % align ≠ 0 then (some 3, s)
    else if ptrWindow p = 0 then
      if 2 ^ 40 < ptrOff p + n then (some 3, s)
      else (linePieces (ptrOff p) n).foldl (fun acc c =>
        match acc with
        | (some k, s) => (some k, s)
        | (none, s) => chk s (ptrWithOff p (ptrOff p + c.1)) c.2 1 .onchip) (none, s)
    else chk s p n align .onchip
  | _ => (some 2, s)

/-- A local operand or side that may be a scratchpad offset, [63:32] zero. -/
def isOffset (p : Word64) : Bool := fieldOf p 32 32 == 0

/-- Fault class of a side. -/
def State.sideCheck (s : State) (e : Iss) (p : Word64) (n align : Nat) (kind : Kind) : Option Nat × State :=
  if isOffset p then s.checkAddress e.core e.g.ctx e.g.team p false n align .scratch kind false else s.ptrCheck e p n align kind

/-- A side as an address. -/
def State.sideAddr (s : State) (e : Iss) (p : Word64) : CopyAddr :=
  if isOffset p then .scratch ((s.core e.core).scratchAddr e.g.team p.toNat) else .ptr p

/-! ### Tensor maps (R213) -/

/-- A tensor map. -/
structure TileMap where
  /-- BASE -/
  base : Word64
  /-- EXT0–EXT4 -/
  ext : List Nat
  /-- Strides, dimension 0 first. -/
  str : List Nat
  /-- WIN0–WIN4 -/
  win : List Nat
  /-- Element bytes. -/
  esz : Nat
  /-- DIMS -/
  dims : Nat
  /-- TRN -/
  trn : Bool
  /-- LPITCH -/
  lpitch : Nat
  deriving DecidableEq, Repr

/-- Extent of the box along a dimension. -/
def TileMap.nb (m : TileMap) (d : Nat) : Nat := if d < m.dims then m.win.getD d 1 else 1

/-- Bytes of one local row. -/
def TileMap.rowBytes (m : TileMap) : Nat := m.nb (if m.trn then 1 else 0) * m.esz

/-- Bytes from one local row to the next. -/
def TileMap.pitch (m : TileMap) : Nat := if m.lpitch ≠ 0 then m.lpitch else m.rowBytes

/-- Local rows. -/
def TileMap.rows (m : TileMap) : Nat := (if m.trn then m.nb 0 else m.nb 1) * m.nb 2 * m.nb 3 * m.nb 4

/-- Bytes of the local footprint. -/
def TileMap.footprint (m : TileMap) : Nat := (m.rows - 1) * m.pitch + m.rowBytes

/-- The map in 64 bytes, unless R213 makes it a bounds fault. -/
def decodeMap (n : Nat) : Option TileMap :=
  let x : BitVec 512 := BitVec.ofNat 512 n
  let esz := 2 ^ fieldOf x 429 2
  let m : TileMap :=
    { base := BitVec.ofNat 64 (fieldOf x 0 64)
      ext := (List.range 5).map (fun d => fieldOf x (64 + 32 * d) 32)
      str := esz :: (List.range 4).map (fun d => fieldOf x (224 + 40 * d) 40)
      win := (List.range 5).map (fun d => fieldOf x (384 + 9 * d) 9)
      esz := esz, dims := fieldOf x 431 3, trn := x.getLsbD 434, lpitch := fieldOf x 448 20 }
  if m.dims = 0 ∨ 5 < m.dims ∨ (List.range m.dims).any (fun d => m.ext.getD d 0 == 0 || m.win.getD d 0 == 0 || 256 < m.win.getD d 0) ∨
      (m.trn ∧ m.dims = 1) ∨ (m.lpitch ≠ 0 ∧ (m.lpitch % esz ≠ 0 ∨ m.lpitch < m.rowBytes)) ∨ fieldOf x 435 13 ≠ 0 ∨ fieldOf x 468 44 ≠ 0 then
    none
  else some m

/-- Consecutive in-bounds elements: place in the local order, byte offsets from BASE and from the local operand, bytes. -/
structure Run where
  /-- l of the first element. -/
  l : Nat
  /-- Offset from BASE. -/
  r : Nat
  /-- Offset from the local operand. -/
  o : Nat
  /-- Bytes. -/
  n : Nat
  deriving DecidableEq, Repr

/-- In-bounds elements of a box with origins xs, run by run along dimension 0: one part a run where the local image holds
dimension 0 fastest, one part an element where it is transposed (R215). -/
def TileMap.runs (m : TileMap) (xs : List Int) : List (List Run) :=
  let x (d : Nat) : Int := xs.getD d 0
  let inside (d b : Nat) : Bool := d ≥ m.dims || (0 ≤ x d + b && x d + b < (m.ext.getD d 0 : Int))
  let lo := (max 0 (-(x 0))).toNat
  let hi := (min (m.nb 0 : Int) ((m.ext.getD 0 0 : Int) - x 0)).toNat
  if hi ≤ lo then []
  else
    (List.range (m.nb 4)).flatMap (fun b4 => (List.range (m.nb 3)).flatMap (fun b3 => (List.range (m.nb 2)).flatMap (fun b2 =>
      (List.range (m.nb 1)).filterMap (fun b1 =>
        if inside 1 b1 && inside 2 b2 && inside 3 b3 && inside 4 b4 then
          let at_ (d b : Nat) : Nat := if d < m.dims then (x d + b).toNat * m.str.getD d 0 else 0
          let far := at_ 1 b1 + at_ 2 b2 + at_ 3 b3 + at_ 4 b4
          let outer := b2 + m.nb 2 * (b3 + m.nb 3 * b4)
          let remote (b0 : Nat) : Nat := far + (x 0 + b0).toNat * m.esz
          some (if m.trn then
            (List.range (hi - lo)).map (fun i =>
              let b0 := lo + i
              let row := b0 + m.nb 0 * outer
              ⟨b1 + m.nb 1 * row, remote b0, row * m.pitch + b1 * m.esz, m.esz⟩)
          else
            let row := b1 + m.nb 1 * outer
            [⟨lo + m.nb 0 * row, remote lo, row * m.pitch + lo * m.esz, (hi - lo) * m.esz⟩])
        else none))))

/-- Intervals less [a, b). -/
def cutOut (iv : List (Nat × Nat)) (a b : Nat) : List (Nat × Nat) :=
  iv.flatMap (fun i => (if i.1 < min i.2 a then [(i.1, min i.2 a)] else []) ++ (if max i.1 b < i.2 then [(max i.1 b, i.2)] else []))

/-- Place in the local order of the element at an offset from the local operand (R215). -/
def TileMap.place (m : TileMap) (o : Nat) : Nat := o / m.pitch * m.nb (if m.trn then 1 else 0) + o % m.pitch / m.esz

/-- A piece without some intervals of its destination. -/
def Piece.without (p : Piece) (cuts : List (Nat × Nat)) : List Piece :=
  (cuts.foldl (fun iv c => cutOut iv c.1 c.2) [(p.dst.pos, p.dst.pos + p.n)]).map (fun i =>
    ⟨p.src.plus (i.1 - p.dst.pos), p.dst.plus (i.1 - p.dst.pos), i.2 - i.1⟩)

/-! ### Acceptance (R197, R198, R216) -/

/-- Registers of the register window that a copy writes, with the bytes into each: (logical core, slot, register, bytes). -/
def markRegs (ops : List LineOp) : List (Nat × Nat × Nat × Nat) :=
  let parts := ops.flatMap (fun o => o.pieces.flatMap (fun p =>
    match p.dst with
    | .ptr q =>
      if ptrTag q = 2 ∧ ptrWindow q = 0 then
        (linePieces (ptrOff q) p.n).map (fun c => let a := ptrOff q + c.1; (ptrCore q, a >>> 15, (a >>> 7) % 256, c.2))
      else []
    | _ => []))
  parts.foldl (fun l m =>
    if l.any (fun k => k.1 = m.1 ∧ k.2.1 = m.2.1 ∧ k.2.2.1 = m.2.2.1) then
      l.map (fun k => if k.1 = m.1 ∧ k.2.1 = m.2.1 ∧ k.2.2.1 = m.2.2.1 then (k.1, k.2.1, k.2.2.1, k.2.2.2 + m.2.2.2) else k)
    else l ++ [m]) []

/-- Full/empty state of a register of another group of a context. -/
def State.feAt (s : State) (x core slot reg : Nat) : FE := ((s.group (s.coreOf x core) slot).map (fun g => g.feOf reg)).getD .full

/-- A .mark copy starts once the registers that it covers are FULL: they become EMPTY-REMOTE. -/
def State.startMarks (s : State) (core slot : Nat) : State :=
  match s.copy core slot with
  | none => s
  | some c =>
    if c.marks.any (fun m => s.feAt c.ctx m.1 m.2.1 m.2.2.1 != .full) then s.onCopy core slot (fun c => { c with waitFull := true })
    else
      let s := s.onCopy core slot (fun c => { c with waitFull := false })
      c.marks.foldl (fun s m => s.onGroup (s.coreOf c.ctx m.1) m.2.1 (fun g => g.setFe m.2.2.1 .emptyRemote)) s

/-- Free copy slots. -/
def Core.freeCopies (k : Core) : Nat := copySlots - k.copies.length

/-- The source bytes of operations as they stand: none for an operation that reads another module, or whose bytes cannot be
read yet. -/
def State.takeBytes (s : State) (e : Iss) (ops : List LineOp) : List (Option (List (List Byte))) :=
  ops.map (fun o =>
    match s.farLines e.core e.g.ctx .read (o.pieces.map (fun p => (p.src, p.n, []))), s.readPieces e.core e.g.ctx o.pieces with
    | .ok ([], _), .ok (d, _) => some d
    | _, _ => none)

/-- Accept a copy: it takes the lowest free slot. One with nothing to do completes at once. -/
def State.acceptCopy (s : State) (e : Iss) (i : Instr) (vals : List Word64) (mark drain : Bool) (bar : Option Nat) (p : CopyPlan) : State :=
  if p.ops.isEmpty then s.creditBar e.core e.g.ctx e.slot e.prec e.g.age e.pc bar p.count false
  else
    let k := s.core e.core
    match tabFree k.copies copySlots with
    | none => s
    | some j =>
      let c : Copy :=
        { ctx := e.g.ctx, launch := e.g.launch, team := e.g.team, slot := e.slot, prec := e.prec, instr := i, pc := e.pc
          weight := ((s.launchOf e.g).map Launch.weight).getD 1, order := k.nextCopy, time := s.time, vals := vals, count := p.ops.length, todo := p.ops, flying := []
          bar := bar, credit := p.count, error := none, written := p.hidden, hold := none
          marks := if mark then markRegs p.ops else [], waitFull := false, waitDrain := drain, serial := p.serial
          span := [], taken := if p.serial then s.takeBytes e p.ops else []
          descs := s.descsOf e.core e.g.ctx (p.ops.flatMap (fun o => o.pieces.flatMap (fun q => q.src.ptr?.toList ++ q.dst.ptr?.toList))) }
      let s := s.setCore e.core { k with copies := tabPut k.copies j c, nextCopy := k.nextCopy + 1 }
      s.startMarks e.core j

/-- What planning a copy finds. -/
inductive Planned where
  /-- A check fails: class and address. -/
  | bad (c : Nat) (a : Word64)
  /-- The map cannot be fetched. -/
  | port (f : PortFault) (p : Word64)
  /-- The map had to be fetched first. -/
  | fetch (s : State)
  /-- The plan. -/
  | ok (p : CopyPlan) (s : State)

/-- Barrier of a tile or linear copy: the zero specifier names none (R197). -/
def copyBar (f : FmtA) (e : Iss) : Option Word64 := if f.b.toNat = 0xF8 then none else some (e.uni f.b)

/-- The copy is written .cv. -/
def isCv (f : FmtA) : Bool := f.mod.getLsbD 11

/-- Issue a copy that acts once: a path's own, or one that a convergence register gathers (R199). -/
def State.issueCopy (s : State) (e : Iss) (i : Instr) (f : FmtA) (op nd : Nat) (mark drain : Bool) (plan : State → Planned) : State :=
  let n := regNo f
  let vals := e.fixedVals f nd
  if isCv f && (s.cvHeld e n || (s.cvOf e n).differs i vals) then
    s.signing e i n op vals (fun _ => .ok none) Core.freeCopies (fun _ _ s => s)
  else
    match plan s with
    | .bad c a => s.lanesFault e e.act c a 0 0
    | .port x p => s.portFault e.core e.slot e.prec e.act e.q.place p x
    | .fetch t =>
      match s.barCheck e (copyBar f e) with
      | .error (c, a) => s.lanesFault e e.act c a 0 0
      | .ok _ => (t.parkIss e 10 (BitVec.ofNat 64 op)).wake e.core e.slot e.prec
    | .ok p s =>
      if isCv f then
        s.signingTo e i n op vals (fun s => s.barCheck e (copyBar f e)) Core.freeCopies (fun bar _ s => s.acceptCopy e i vals mark drain bar p)
          (fun s => s.result e (fun g => g.writeUni f.d e.act (BitVec.ofNat 64 p.count)))
      else
        match s.barCheck e (copyBar f e) with
        | .error (c, a) => s.lanesFault e e.act c a 0 0
        | .ok bar =>
          let k := s.core e.core
          if k.freeCopies = 0 || !k.pendRoom bar then s.parkIss e 10 (BitVec.ofNat 64 op)
          else
            let s := s.setCore e.core (k.barAccept bar)
            (s.acceptCopy e i vals mark drain bar p).result e (fun g => g.writeUni f.d e.act (BitVec.ofNat 64 p.count))

/-- The convergence register of a .cv copy has a count (R199). -/
def copyPre (f : FmtA) (e : Iss) (s : State) : Bool := !isCv f || cvSet (regNo f) e s

/-! ### TCPY and TCPO (R213–R216) -/

/-- Box origins (R214). -/
def boxOrigin (e : Iss) (f : FmtA) : List Int :=
  [signedOf 32 (fieldOf (e.desc f 1) 0 32), signedOf 32 (fieldOf (e.desc f 1) 32 32), signedOf 32 (fieldOf (e.desc f 2) 0 32),
    signedOf 32 (fieldOf (e.desc f 2) 32 32), signedOf 32 (fieldOf (e.desc f 3) 0 32)]

/-- Largest local footprint (R215). -/
def footprintMax : Nat := 983040

/-- Check of BASE over the in-bounds bytes. -/
def State.baseCheck (s : State) (e : Iss) (base : Word64) (runs : List Run) (kind : Kind) : Option (Nat × Word64) × State :=
  if ptrTag base = 3 then (some (2, base), s)
  else
    match runs with
    | [] => (none, s)
    | r :: rs =>
      let lo := rs.foldl (fun a q => min a q.r) r.r
      let hi := rs.foldl (fun a q => max a (q.r + q.n)) (r.r + r.n)
      let p := ptrWithOff base (ptrOff base + lo)
      if 2 ^ 40 < ptrOff base + hi then (some (3, base), s)
      else if ptrTag base = 2 ∧ ptrWindow base = 0 then
        runs.foldl (fun acc q =>
          match acc with
          | (some c, s) => (some c, s)
          | (none, s) =>
            let p := ptrWithOff base (ptrOff base + q.r)
            let (c, s) := s.ptrCheck e p q.n 1 kind
            (c.map (fun c => (c, p)), s)) (none, s)
      else
        let (c, s) := s.ptrCheck e p (hi - lo) 1 kind
        (c.map (fun c => (c, p)), s)

/-- The line operations of a tile copy (R215, R268). Of elements of a TCPO on one remote byte the one of larger l remains: an
operation waits for the earlier ones that write its bytes, and where the larger l comes in an earlier operation the later
writes nothing there. -/
def State.tileOps (s : State) (e : Iss) (m : TileMap) (loc : CopyAddr) (runs : List (List Run)) (out : Bool) : CopyPlan :=
  let far (r : Run) : CopyAddr := .ptr (ptrWithOff m.base (ptrOff m.base + r.r))
  let piece (r : Run) : Piece := if out then ⟨loc.plus r.o, far r, r.n⟩ else ⟨far r, loc.plus r.o, r.n⟩
  let cutFar := if s.ownScratch e loc != s.ownScratch e (.ptr m.base) then s.ownScratch e loc else out
  let total (l : List Run) : Nat := (l.map Run.n).foldl (· + ·) 0
  let side (p : Piece) : CopyAddr := if cutFar = out then p.dst else p.src
  let plain (g : List Run) : List LineOp :=
    if m.trn ∧ !cutFar then g.map (fun r => LineOp.mk [piece r]) else cutPieces side (g.map piece)
  let reach (g : List Run) : Nat × Nat := (((g.head?).map Run.r).getD 0, (g.getLast?.map (fun r => r.r + r.n)).getD 0)
  let earlier (i : Nat) (g : List Run) : List Run :=
    ((runs.take i).filter (fun h => (reach h).1 < (reach g).2 && (reach g).1 < (reach h).2)).flatten
  let keep (before : List Run) (p : Piece) : List Piece :=
    let l := m.place (p.src.pos - loc.pos)
    p.without ((before.filter (fun q => l < q.l)).map (fun q => (ptrOff m.base + q.r, ptrOff m.base + q.r + q.n)))
  let ops := if out ∧ m.trn then
      ((List.range runs.length).zip runs).flatMap (fun g =>
        let before := earlier g.1 g.2
        (plain g.2).map (fun o => LineOp.mk (o.pieces.flatMap (keep before))))
    else runs.flatMap plain
  let n := total runs.flatten
  ⟨ops, n, n - (ops.map LineOp.bytes).foldl (· + ·) 0, false⟩

/-- Plan a tile copy: the checks of R215 in their order, then its operations. A map that the L1 does not hold is fetched
first; the checks that need its contents come when the word issues again (R198). -/
def State.planTile (s : State) (e : Iss) (f : FmtA) (out : Bool) : Planned :=
  let p := e.desc f 0
  match s.checkAddress e.core e.g.ctx e.g.team p false 64 64 .control .read false with
  | (some c, _) => .bad c p
  | (none, s) =>
    let away := (s.l1Find e.core e.g.ctx p).isNone
    match s.l1Read e.core e.g.ctx p 64 with
    | .error x => .port x p
    | .ok (bs, s) =>
      let a := e.uni f.a
      match decodeMap (leNat bs) with
      | none => if away then (if !isOffset a ∧ ptrTag a ≠ 2 then .bad 2 a else .fetch s) else .bad 3 p
      | some m =>
        if !isOffset a ∧ ptrTag a ≠ 2 then .bad 2 a
        else if away then .fetch s
        else if footprintMax < m.footprint then .bad 3 a
        else
          match s.sideCheck e a m.footprint m.esz (if out then .read else .write) with
          | (some c, _) => .bad c a
          | (none, s) =>
            let runs := m.runs (boxOrigin e f)
            match s.baseCheck e m.base runs.flatten (if out then .write else .read) with
            | (some (c, q), _) => .bad c q
            | (none, s) => .ok (s.tileOps e m (s.sideAddr e a) runs out) s

/-- TCPY (R214). -/
def execTcpy (f : FmtA) (s : State) : Host.Outcome State Fault Refusal :=
  s.issue (.tcpy f) f.guard always (copyPre f) (fun e s =>
    s.issueCopy e (.tcpy f) f 0xD0 4 (f.mod.getLsbD 12) false (fun s => s.planTile e f false))

/-- TCPO (R214). -/
def execTcpo (f : FmtA) (s : State) : Host.Outcome State Fault Refusal :=
  s.issue (.tcpo f) f.guard always (copyPre f) (fun e s =>
    s.issueCopy e (.tcpo f) f 0xD1 4 (f.mod.getLsbD 12) false (fun s => s.planTile e f true))

/-! ### GCPY and SCPY (R218) -/

/-- A lane's unit: lane, remote pointer, scratchpad offset. -/
abbrev Unit' := Nat × Word64 × Word64

/-- Check the lanes' two addresses, the local one first (R232). -/
def State.unitLanes (s : State) (e : Iss) (f : FmtA) (unit : Nat) (scatter : Bool) : List Unit' × List (Nat × Nat × Word64) × State :=
  (lanesOf e.act).foldl (fun acc l =>
    let (ok, bad, s) := acc
    let p := e.g.read f.a 2 l
    let o := e.g.read f.b 1 l
    match s.checkAddress e.core e.g.ctx e.g.team o false unit unit .scratch (if scatter then .read else .write) false with
    | (some c, s) => (ok, bad ++ [(l, c, o)], s)
    | (none, s) =>
      match s.ptrCheck e p unit unit (if scatter then .write else .read) with
      | (some c, s) => (ok, bad ++ [(l, c, p)], s)
      | (none, s) => (ok ++ [(l, p, o)], bad, s)) ([], [], s)

/-- One operation for each 128-byte line of the remote side; of units on one destination the highest lane's is written. -/
def unitOps (base unit : Nat) (scatter : Bool) (us : List Unit') : List LineOp :=
  let dst (u : Unit') : Word64 := if scatter then u.2.1 else u.2.2
  let shown (u : Unit') : Bool := !us.any (fun v => u.1 < v.1 && dst v == dst u)
  let loc (u : Unit') : CopyAddr := .scratch (base + u.2.2.toNat)
  let line (u : Unit') : Word64 := u.2.1 >>> 7
  ((us.map line).eraseDups).map (fun n => ⟨(us.filter (fun u => line u = n ∧ shown u)).map (fun u =>
    if scatter then ⟨loc u, .ptr u.2.1, unit⟩ else ⟨.ptr u.2.1, loc u, unit⟩)⟩)

/-- Units of a gather or scatter. -/
def State.unitCopy (s : State) (e : Iss) (i : Instr) (f : FmtA) (op : Nat) (scatter : Bool) : State :=
  let unit := 4 * 2 ^ fieldOf f.mod 7 2
  let (us, bad, s) := s.unitLanes e f unit scatter
  match s.barCheck e (barField (e.desc f 0) 0) with
  | .error (c, a) => s.raiseLanes e (bad ++ us.map (fun u => (u.1, c, a)))
  | .ok bar =>
    let k := s.core e.core
    if e.parksWhole s bad then s.raiseLanes e bad
    else if !us.isEmpty && k.freeCopies = 0 || !k.pendRoom bar then
      if bad.isEmpty then s.parkIss e 10 (BitVec.ofNat 64 op) else s.raiseLanes e bad
    else
      let n := unit * us.length
      let ops := unitOps (k.scratchAddr e.g.team 0) unit scatter us
      let hidden := n - (ops.map LineOp.bytes).foldl (· + ·) 0
      let s := s.setCore e.core (k.barAccept bar)
      let s := s.acceptCopy e i (e.fixedVals f 1) (!scatter && f.mod.getLsbD 12) false bar ⟨ops, n, hidden, false⟩
      (s.result e (fun g => g.writeUni f.d e.act (BitVec.ofNat 64 n))).raiseLanes e bad

/-- GCPY (R218). -/
def execGcpy (f : FmtA) (s : State) : Host.Outcome State Fault Refusal :=
  s.issue (.gcpy f) f.guard always always (fun e s => s.unitCopy e (.gcpy f) f 0xD2 false)

/-- SCPY (R218). -/
def execScpy (f : FmtA) (s : State) : Host.Outcome State Fault Refusal :=
  s.issue (.scpy f) f.guard always always (fun e s => s.unitCopy e (.scpy f) f 0xD3 true)

/-! ### WCPY (R219) -/

/-- Where the bytes of a side lie: ranges of physical memory (0), or of a core's window. Pages that are not present lie
nowhere yet. -/
def State.sidePlaces (s : State) (e : Iss) (a : CopyAddr) (n : Nat) : List (Nat × Nat × Nat) :=
  match a with
  | .scratch b => [(4 * e.core + 2, b, n)]
  | .phys pa _ => [(0, pa, n)]
  | .line pa _ _ => [(0, pa, n)]
  | .ptr p =>
    if ptrTag p = 2 then [(4 * s.targetCore e.g.ctx p + ptrWindow p + 1, ptrOff p, n)]
    else (unitPieces 4096 (ptrOff p) n).filterMap (fun c =>
      match s.sysPort e.core e.g.ctx (ptrWithOff p (ptrOff p + c.1)) with
      | .ok (t, _) => some (0, t.pa, c.2)
      | .error _ => none)

/-- Two sides of n bytes share a byte: of one object, or of one place. -/
def State.sidesOverlap (s : State) (e : Iss) (a b : CopyAddr) (n : Nat) : Bool :=
  let near (x y : Nat) : Bool := x < y + n && y < x + n
  (match a, b with
    | .ptr p, .ptr q => p >>> 40 == q >>> 40 && near (ptrOff p) (ptrOff q)
    | _, _ => false) ||
  (let us := s.sidePlaces e a n
   let vs := s.sidePlaces e b n
   us.any (fun u => vs.any (fun v => u.1 == v.1 && u.2.1 < v.2.1 + v.2.2 && v.2.1 < u.2.1 + u.2.2)))

/-- Plan a linear copy: its checks, then its operations; sides that overlap take their source's bytes at acceptance, or, where
these cannot be read yet, leave no byte of the source overwritten before it is read. -/
def State.planLinear (s : State) (e : Iss) (f : FmtA) : Planned :=
  let n := fieldOf (e.uni f.a) 0 32
  let p := e.desc f 0
  let q := e.desc f 1
  if !isOffset p ∧ ptrTag p = 3 then .bad 2 p
  else if n % 16 ≠ 0 ∨ p.toNat % 16 ≠ 0 then .bad 3 p
  else
    match s.sideCheck e p n 16 .read with
    | (some c, _) => .bad c p
    | (none, s) =>
      match s.sideCheck e q n 16 .write with
      | (some c, _) => .bad c q
      | (none, s) =>
        let a := s.sideAddr e p
        let b := s.sideAddr e q
        let ops := if n = 0 then [] else cutPieces (if s.cutSource e a b then Piece.src else Piece.dst) [⟨a, b, n⟩]
        let overlap := s.sidesOverlap e a b n
        .ok ⟨if overlap ∧ a.pos < b.pos then ops.reverse else ops, n, 0, overlap⟩ s

/-- WCPY (R219). -/
def execWcpy (f : FmtA) (s : State) : Host.Outcome State Fault Refusal :=
  s.issue (.wcpy f) f.guard always (copyPre f) (fun e s =>
    s.issueCopy e (.wcpy f) f 0xD4 2 (f.mod.getLsbD 12) false (fun s => s.planLinear e f))

/-! ### DRAIN (R220, R435–R440) -/

/-- Plan a DRAIN: its checks; its one operation stands for the range until the snapshot is claimed. -/
def State.planDrain (s : State) (e : Iss) (f : FmtA) : Planned :=
  let n := fieldOf (e.uni f.a) 0 32
  let p := e.desc f 0
  let q := e.desc f 1
  if ptrTag p ≠ 1 then .bad 2 p
  else if n % 128 ≠ 0 then .bad 3 p
  else
    match s.ptrCheck e p n 128 .read with
    | (some c, _) => .bad c p
    | (none, s) =>
      if ptrTag q ≠ 1 then .bad 2 q else
      match s.ptrCheck e q n 128 .write with
      | (some c, _) => .bad c q
      | (none, s) => .ok ⟨if n = 0 then [] else [⟨[⟨.ptr p, .ptr q, n⟩]⟩], n, 0, false⟩ s

/-- DRAIN (R220). -/
def execDrain (f : FmtA) (s : State) : Host.Outcome State Fault Refusal :=
  s.issue (.drain f) f.guard always (copyPre f) (fun e s => s.issueCopy e (.drain f) f 0xD5 2 false true (fun s => s.planDrain e f))

/-- Start of a module's snapshot-drain region, and its size (R22). -/
def State.drainRegion (s : State) : Nat × Nat :=
  (0x10000000000 + 64 * 2 ^ 30 + tabGet 0 s.carves 0 + tabGet 0 s.carves 1, tabGet 0 s.carves 2)

/-- The line lies in its module's drain region, on a live module. -/
def State.inDrain (s : State) (pa : Nat) : Bool :=
  s.isLive (paModule pa) && s.drainRegion.1 ≤ paLocal pa && paLocal pa < s.drainRegion.1 + s.drainRegion.2

/-- A run of lines: source line, destination line, count, and the DRAIN's pointers of its first line. -/
structure SnapRun where
  /-- Source line. -/
  src : Nat
  /-- Destination line. -/
  dst : Nat
  /-- Lines. -/
  n : Nat
  deriving DecidableEq, Repr

/-- Maximal runs contiguous at both sides, within one controller. -/
def snapRuns (ls : List (Nat × Nat)) : List SnapRun :=
  (ls.foldl (fun (acc : List SnapRun) l =>
    match acc with
    | r :: rs =>
      if l.1 = r.src + r.n ∧ l.2 = r.dst + r.n ∧ controllerOf (l.1 * 128) = controllerOf (r.src * 128) then { r with n := r.n + 1 } :: rs
      else ⟨l.1, l.2, 1⟩ :: r :: rs
    | [] => [⟨l.1, l.2, 1⟩]) []).reverse

/-- Translate every line of a DRAIN: physical addresses, or where it holds or fails. -/
def State.drainLines (s : State) (core x : Nat) (ds : Descs) (p q : Word64) (n : Nat) : Except SideFault (List (Nat × Nat) × State) :=
  (List.range (n / 128)).foldlM (fun (acc : List (Nat × Nat) × State) i => do
    let a := ptrWithOff p (ptrOff p + 128 * i)
    let b := ptrWithOff q (ptrOff q + 128 * i)
    match acc.2.port core x a .read ds with
    | .error f => .error (f.side a)
    | .ok (t, s) =>
      match s.port core x b .write ds with
      | .error f => .error (f.side b)
      | .ok (u, s) => .ok (acc.1 ++ [(t.pa, u.pa)], s)) ([], s)

/-- Claim entries for runs, the lowest free of each controller: none where too few are free. -/
def State.claimRuns (s : State) (core slot : Nat) (rs : List SnapRun) : Option State :=
  rs.foldlM (fun (s : State) r =>
    let ctl := controllerOf (r.src * 128)
    match (List.range 8).find? (fun i => !(tabGet Migration.reset s.migs (8 * ctl + i)).en) with
    | none => none
    | some i => 
      let m : Migration := ⟨r.src * 128, r.dst * 128, r.n, 0, true, true, false, [], some (core, slot)⟩
      some { s with migs := tabPut s.migs (8 * ctl + i) m }) s

/-- An enabled entry covers one of the source lines (R435), or a DRAIN still in flight took one of them (R220). -/
def State.linesBusy (s : State) (ls : List (Nat × Nat)) : Bool :=
  s.migs.any (fun e => e.2.en && ls.any (fun l => e.2.src / 128 ≤ l.1 / 128 && l.1 / 128 < e.2.src / 128 + e.2.lines)) ||
  s.cores.any (fun k => k.2.copies.any (fun c => c.2.span.any (fun r => ls.any (fun l => r.1 ≤ l.1 / 128 && l.1 / 128 < r.1 + r.2))))

/-- A DRAIN ends before acceptance with an error. -/
def State.failDrain (s : State) (core slot c : Nat) (p : Word64) : State :=
  (s.onCopy core slot (fun x => { x with todo := [], waitDrain := false, error := some (c, p) })).checkCopy core slot

/-- SNAPSHOT_CLAIM (R435, R436): translate, check, claim every entry and accept the DRAIN. -/
def execSnapshotClaim (core slot : Nat) (s : State) : Host.Outcome State Fault Refusal :=
  .next (match s.copy core slot with
    | none => s
    | some c =>
      match c.waitDrain, c.hold, c.todo with
      | true, none, [⟨[⟨.ptr p, .ptr q, n⟩]⟩] =>
        match s.drainLines core c.ctx c.descs p q n with
        | .error .wait => s
        | .error (.hold a m) => s.holdCopy core slot a m
        | .error (.cls k a) => s.failDrain core slot k a
        | .ok (ls, s) =>
          let rs := snapRuns (ls.map (fun l => (paLine l.1, paLine l.2)))
          let crowded := (rs.map (fun r => controllerOf (r.src * 128))).eraseDups.any (fun k =>
            8 < (rs.filter (fun r => controllerOf (r.src * 128) = k)).length)
          if ls.any (fun l => paModule l.1 != s.moduleId.toNat) then s.failDrain core slot 3 p
          else if ls.any (fun l => !s.inDrain l.2) then s.failDrain core slot 3 q
          else if crowded then s.failDrain core slot 3 p
          else if s.linesBusy ls then s
          else
            match s.claimRuns core slot rs with
            | none => s
            | some s =>
              let ops := ((List.range ls.length).zip ls).map (fun e => LineOp.mk
                [⟨.phys e.2.1 (ptrWithOff p (ptrOff p + 128 * e.1)), .phys e.2.2 (ptrWithOff q (ptrOff q + 128 * e.1)), 128⟩])
              let k := s.core core
              s.setCore core { k with
                nextCopy := k.nextCopy + 1
                copies := tabMod k.copies slot (fun x => { x with
                  count := ops.length, todo := ops, waitDrain := false, time := s.time, order := k.nextCopy, span := rs.map (fun r => (r.src, r.n)) }) }
      | _, _, _ => s)

/-- SNAPSHOT_EARLY_COPY (R437): a write to a line that the entry has not copied makes the early copy. -/
def execSnapshotEarlyCopy (ctl entry line : Nat) (s : State) : Host.Outcome State Fault Refusal :=
  .next (match tabFind s.migs (8 * ctl + entry) with
    | none => s
    | some m => s.snapEarly (8 * ctl + entry) (m.src / 128 + line))

/-- COPY_HOLD_RELEASE (R216): the registers that a held copy covers have become FULL. -/
def execCopyHoldRelease (core slot : Nat) (s : State) : Host.Outcome State Fault Refusal :=
  .next (match s.copy core slot with
    | none => s
    | some c => if c.waitFull then s.startMarks core slot else s)

end Sys2Proof.Machine
end

