-- ==== Sys2Proof/Machine/Steps.lean ====
section
/-! DEFINITION. Sys2Proof/Machine/Steps.lean: collective steps (R221–R224, R389–R393), and the answers and timeouts of
lower-deck requests (R386, R388). -/

namespace Sys2Proof.Machine

/-! ### Fields of a step (R221) -/

/-- SOFF -/
def StepOp.soff (x : StepOp) : Nat := fieldOf (x.vals.getD 1 0) 0 32
/-- KOFF -/
def StepOp.koff (x : StepOp) : Nat := fieldOf (x.vals.getD 1 0) 32 32
/-- N -/
def StepOp.n (x : StepOp) : Nat := fieldOf (x.vals.getD 2 0) 0 32
/-- PEER -/
def StepOp.peer (x : StepOp) : Nat := fieldOf (x.vals.getD 2 0) 32 8
/-- CHAIN -/
def StepOp.tag (x : StepOp) : Nat := fieldOf (x.vals.getD 2 0) 40 8
/-- DEADLINE -/
def StepOp.deadline (x : StepOp) : Word64 := x.vals.getD 3 0
/-- OUT -/
def StepOp.out (x : StepOp) : Word64 := x.vals.getD 4 0
/-- BUF -/
def StepOp.buf (x : StepOp) : Word64 := x.vals.getD 0 0
/-- The word's modifiers and type. -/
def StepOp.word (x : StepOp) : FmtA :=
  match x.instr with
  | .cstep f => f
  | _ => ⟨0, 0, 0, 0, 0, 0, 0, 0⟩
/-- .first -/
def StepOp.first (x : StepOp) : Bool := x.word.mod.getLsbD 10
/-- .last -/
def StepOp.last (x : StepOp) : Bool := x.word.mod.getLsbD 11
/-- Bytes of an input element. -/
def StepOp.esz (x : StepOp) : Nat := if x.word.ty = 8 then 4 else 2
/-- Credit: N × 4 for .last. -/
def StepOp.credit (x : StepOp) : Nat := if x.last then x.n * 4 else 0

/-- Largest N. -/
def stepMax : Nat := 262144
/-- Bytes of a router's step buffer (R389). -/
def stepBuffer : Nat := 4 * 2 ^ 20

/-- A chain of a context. -/
def State.chain (s : State) (x tag : Nat) : Chain := tabGet Chain.blank s.chains (x * 256 + tag)
/-- Change a chain. -/
def State.onChain (s : State) (x tag : Nat) (f : Chain → Chain) : State :=
  { s with chains := tabSet Chain.blank s.chains (x * 256 + tag) (f (s.chain x tag)) }
/-- Change a step. -/
def State.onStep (s : State) (core slot : Nat) (f : StepOp → StepOp) : State :=
  s.onCore core (fun k => { k with steps := tabMod k.steps slot f })
/-- A step. -/
def State.stepAt (s : State) (core slot : Nat) : Option StepOp := tabFind (s.core core).steps slot

/-- Every step in its slot: core, slot, step. -/
def State.allSteps (s : State) : List (Nat × Nat × StepOp) := s.cores.flatMap (fun c => c.2.steps.map (fun x => (c.1, x.1, x.2)))

/-- Bytes that a span's router holds: held values, and room for the results of accepted steps (R389). -/
def State.stepBytes (s : State) (span : Nat) : Nat :=
  let held := (s.chains.filter (fun c => c.1 % 8 = span)).map (fun c => ((c.2.held.map List.length).getD 0) * 4)
  let steps := (s.allSteps.filter (fun x => x.2.2.tag % 8 = span)).map (fun x => (x.2.2.n + x.2.2.prior) * 4)
  (held ++ steps).foldl (· + ·) 0

/-! ### Ends of steps (R223, R224) -/

/-- A step abort goes to a step's partner on the management channel (R393). -/
def State.sendAbort (s : State) (x : StepOp) : State :=
  s.inject (s.spanRouter (x.tag % 8)) 6
    (packetOf s.moduleId.toNat ⟨x.peer, 6, 63, Config.opcode 6, x.job, x.ctx, x.tag, x.index, 0⟩ [])

/-- Slots or step-buffer room may have become free: records in engine acceptance may go on, on every core (R253). -/
def State.wakeEngines (s : State) : State := s.cores.foldl (fun s c => s.wakeReason c.1 10) s

/-- A step leaves its slot: its error is recorded where it is one, its barrier credited. -/
def State.closeStep (s : State) (core slot : Nat) (x : StepOp) (err : Option (Nat × Word64)) (mark : Bool) : State :=
  let s := match err with
    | some (c, a) => s.engineError core x.ctx x.slot x.prec x.age x.pc c 0 a 0
    | none => s
  let s := s.creditBar core x.ctx x.slot x.prec x.age x.pc x.bar x.credit mark
  (s.onCore core (fun k => { k with steps := tabDel k.steps slot })).wakeEngines

/-- Steps of a step's chain that follow it and precede the next .first step of the tag. -/
def State.followers (s : State) (x : StepOp) : List (Nat × Nat × StepOp) :=
  s.allSteps.filter (fun y => y.2.2.ctx == x.ctx && y.2.2.tag == x.tag && y.2.2.gen == x.gen && x.order < y.2.2.order)

/-- The values that a run of the chain holds are discarded; those of another run stay. -/
def Chain.discard (c : Chain) (gen : Nat) : Chain := if c.heldGen = gen then { c with held := none } else c

/-- An error ends a run of the chain: steps of it that are issued later end with the class too, until a .first step. -/
def Chain.break (c : Chain) (gen cls : Nat) : Chain :=
  { c.discard gen with broken := if c.gen = gen then some cls else c.broken }

/-- An error ends a step and its chain (R223). -/
def State.failStep (s : State) (core slot cls : Nat) (addr : Word64) : State :=
  match s.stepAt core slot with
  | none => s
  | some x =>
    let rest := s.followers x
    let s := (s.closeStep core slot x (some (cls, addr)) true).sendAbort x
    let s := rest.foldl (fun s y => (s.closeStep y.1 y.2.1 y.2.2 (some (cls, addr)) true).sendAbort y.2.2) s
    s.onChain x.ctx x.tag (fun c => c.break x.gen cls)

/-- A step ends as by CABORT, unless its results are formed: ERR, no record (R224). -/
def State.abortStep (s : State) (core slot : Nat) (tell : Bool) : State :=
  match s.stepAt core slot with
  | none => s
  | some x =>
    if x.results.isSome then s
    else
      let s := s.closeStep core slot x none true
      let s := s.onChain x.ctx x.tag (fun c => c.discard x.gen)
      if tell then s.sendAbort x else s

/-- End every step of a context that has not formed its results, of one chain or of all, and discard held values. -/
def State.abortChains (s : State) (x : Nat) (tag : Option Nat) : State :=
  let mine (t : Nat) : Bool := match tag with | none => true | some k => k == t
  let s := (s.allSteps.filter (fun y => y.2.2.ctx == x && mine y.2.2.tag)).foldl (fun s y => s.abortStep y.1 y.2.1 true) s
  ({ s with chains := s.chains.filterMap (fun c =>
      if c.1 / 256 = x ∧ mine (c.1 % 256) then
        let d : Chain := { c.2 with held := none }
        if d = Chain.blank then none else some (c.1, d)
      else some c) } : State).wakeEngines

/-! ### CSTEP and CABORT -/

/-- A range of a step must carry the tensor tag. -/
def tagCheck (p : Word64) : Check := if ptrTag p ≠ 1 then some (2, p) else none

/-- Issue-time checks of CSTEP (R221, R232). -/
def stepChecks (f : FmtA) (e : Iss) (s : State) : List Check :=
  let buf := e.desc f 0
  let soff := fieldOf (e.desc f 1) 0 32
  let koff := fieldOf (e.desc f 1) 32 32
  let n := fieldOf (e.desc f 2) 0 32
  let out := e.desc f 4
  let esz := if f.ty = 8 then 4 else 2
  let lo := min soff koff
  let range (p : Word64) (off len align : Nat) (kind : Kind) : Check :=
    if ptrTag p ≠ 1 then some (2, p)
    else if p.toNat % align ≠ 0 ∨ 2 ^ 40 < ptrOff p + off + len then some (3, p)
    else (s.checkAddress e.core e.g.ctx e.g.team (ptrWithOff p (ptrOff p + off)) false len 1 .tensor kind false).1.map (fun c => (c, p))
  let count := boundsIf (n == 0 || stepMax < n) (e.desc f 2)
  -- the space of the first range comes before the count that gives its length (R232, R42)
  (if f.mod.getLsbD 10 then [tagCheck buf, count, range buf (lo * esz) ((max soff koff + n - lo) * esz) esz .read]
    else if f.mod.getLsbD 11 then [tagCheck out, count] else [count]) ++
  (if f.mod.getLsbD 11 then [range out 0 (n * 4) 4 .write] else [])

/-- Accept a step: it takes a slot and its place among the chain's steps that name its peer (R390). A step of a broken chain
ends at once (R223). -/
def State.acceptStep (s : State) (e : Iss) (f : FmtA) (bar : Option Nat) : State :=
  let k := s.core e.core
  match tabFree k.steps stepSlots with
  | none => s
  | some j =>
    let vals := (List.range 5).map (e.desc f)
    let x0 : StepOp :=
      { ctx := e.g.ctx, job := (s.ctx e.g.ctx).job.toNat, launch := e.g.launch, team := e.g.team, slot := e.slot, prec := e.prec, age := e.g.age
        instr := .cstep f, pc := e.pc, vals := vals, order := s.nextStep, gen := 0, bar := bar, index := 0, mine := none, send := [], sent := 0
        got := [], results := none, prior := 0, outs := [], error := none, hold := none
        descs := s.descsOf e.core e.g.ctx ((if f.mod.getLsbD 10 then [vals.getD 0 0] else []) ++ (if f.mod.getLsbD 11 then [vals.getD 4 0] else [])) }
    let c := s.chain x0.ctx x0.tag
    let index := tabGet 0 c.counts x0.peer + 1
    let gen := if x0.first then c.gen + 1 else c.gen
    let s := s.onChain x0.ctx x0.tag (fun c =>
      { c with counts := tabSet 0 c.counts x0.peer index, gen := gen, broken := if x0.first then none else c.broken })
    let s := { (s.setCore e.core { k with steps := tabPut k.steps j { x0 with index := index, gen := gen } }) with nextStep := s.nextStep + 1 }
    match (if x0.first then none else c.broken) with
    | some cls => s.failStep e.core j cls x0.buf
    | none => s

/-- CSTEP (R221, R222). -/
def execCstep (f : FmtA) (s : State) : Host.Outcome State Fault Refusal :=
  s.issue (.cstep f) f.guard always always (fun e s =>
    match s.checksThenBar e (stepChecks f e s) (if f.a.toNat = 0xF8 then none else some (e.uni f.a)) with
    | .error (c, a) => s.lanesFault e e.act c a 0 0
    | .ok bar =>
      let k := s.core e.core
      let n := fieldOf (e.desc f 2) 0 32
      let span := fieldOf (e.desc f 2) 40 8 % 8
      if stepSlots ≤ k.steps.length || !k.pendRoom bar || stepBuffer < s.stepBytes span + n * 4 then s.parkIss e 10 0xE0
      else ((s.setCore e.core (k.barAccept bar)).acceptStep e f bar).after e)

/-- CABORT (R224). -/
def execCabort (f : FmtA) (s : State) : Host.Outcome State Fault Refusal :=
  s.issue (.cabort f) f.guard always always (fun e s =>
    (s.abortChains e.g.ctx (if f.mod.getLsbD 7 then none else some (fieldOf (e.uni f.a) 0 8))).after e)

/-! ### Performing a step (R222, R390–R392) -/

/-- The step is the oldest of its chain. -/
def State.stepTurn (s : State) (x : StepOp) : Bool :=
  s.allSteps.all (fun y => y.2.2.ctx != x.ctx || y.2.2.tag != x.tag || x.order ≤ y.2.2.order || y.2.2.results.isSome)

/-- Input elements of BUF from an element on. -/
def State.bufElems (s : State) (core : Nat) (x : StepOp) (from_ : Nat) : Except SideFault (List Word32 × State) :=
  let p := ptrWithOff x.buf (ptrOff x.buf + from_ * x.esz)
  let go : Except SideFault (List Byte × State) := (linePieces (ptrOff p) (x.n * x.esz)).foldlM (fun (acc : List Byte × State) c =>
    let q := ptrWithOff p (ptrOff p + c.1)
    match acc.2.port core x.ctx q .read x.descs with
    | .error f => .error (f.side q)
    | .ok (t, s) =>
      if paModule t.pa ≠ s.moduleId.toNat then .error (.cls 3 q)
      else
        match s.ctlRead (paLine t.pa) with
        | .error k => .error (.cls k q)
        | .ok d => .ok (acc.1 ++ lineBytes d (t.pa % 128) c.2, s)) ([], s)
  match go with
  | .error e => .error e
  | .ok (bs, s) => .ok ((List.range x.n).map (fun i =>
      let v := leNat ((bs.drop (i * x.esz)).take x.esz)
      BitVec.ofNat 32 (if x.esz = 4 then v else v * 2 ^ 16)), s)

/-- Values of a packet that arrived, put at their elements. -/
def StepOp.take (x : StepOp) (p : StepPacket) : StepOp :=
  { x with got := ((List.range p.values.length).zip p.values).foldl (fun t e => if p.first + e.1 < x.n then tabPut t (p.first + e.1) e.2 else t) x.got }

/-- A packet belongs to a step. -/
def StepOp.takes (x : StepOp) (p : StepPacket) : Bool :=
  x.job == p.job && x.tag == p.chain && x.peer == p.peer && x.index == p.step && x.results.isNone

/-- Data that came before its step was issued. -/
def State.fromInbox (s : State) (core slot : Nat) : State :=
  match s.stepAt core slot with
  | none => s
  | some x =>
    let mine := s.stepInbox.filter x.takes
    let s := { s with stepInbox := s.stepInbox.filter (fun p => !x.takes p) }
    if mine.any (fun p => p.count != x.n) then s.failStep core slot 3 x.buf
    else s.onStep core slot (fun x => mine.foldl StepOp.take x)

/-- STEP_PAIR (R390, R222): the oldest step of a chain takes its source and its partner's data: its elements are ready to be
sent. -/
def execStepPair (core slot : Nat) (s : State) : Host.Outcome State Fault Refusal :=
  .next (match s.stepAt core slot with
    | none => s
    | some x =>
      if x.mine.isSome || x.hold.isSome || !s.stepTurn x then s
      else if x.first then
        let both : Except SideFault (List Word32 × List Word32 × State) := do
          let (snd, s) ← s.bufElems core x x.soff
          let (kept, s) ← s.bufElems core x x.koff
          return (snd, kept, s)
        match both with
        | .error (.hold h m) =>
          (s.onStep core slot (fun x => { x with hold := some h })).reportHold core x.ctx x.slot x.prec x.age x.pc h.ptr m
        | .error (.cls c p) => s.failStep core slot c p
        | .error .wait => s
        | .ok (snd, kept, s) => (s.onStep core slot (fun x => { x with send := snd, mine := some kept })).fromInbox core slot
      else
        match (s.chain x.ctx x.tag).held with
        | none => s.failStep core slot 3 x.buf
        | some h =>
          if h.length < x.soff + x.n ∨ h.length < x.koff + x.n then s.failStep core slot 3 x.buf
          else (s.onStep core slot (fun x =>
            { x with send := (h.drop x.soff).take x.n, mine := some ((h.drop x.koff).take x.n) })).fromInbox core slot)

/-- Values of a step-data packet (R389). -/
def stepValues : Nat := 64

/-- Send one packet of a step's elements, where its router has room and injection is not stopped. -/
def State.sendStepData (s : State) (core slot : Nat) (x : StepOp) : State :=
  let vs := x.send.take stepValues
  let p := packetOf s.moduleId.toNat ⟨x.peer, 0, 63, Config.opcode 2, x.job, x.ctx, x.tag + x.sent * 2 ^ 8 + x.n * 2 ^ 26, x.index, BitVec.allOnes 128⟩
    (vs.flatMap (fun v => leBytes 4 v.toNat))
  let r := s.spanRouter (x.tag % 8)
  if vs.isEmpty || s.injectionStopped x.ctx || !s.injectRoom r 0 p then s
  else (s.inject r 0 p).onStep core slot (fun x => { x with send := x.send.drop stepValues, sent := x.sent + vs.length })

/-- STEP_DATA_ARRIVAL (R389–R391). -/
def execStepDataArrival (p : StepPacket) (s : State) : Host.Outcome State Fault Refusal :=
  .next (match s.allSteps.find? (fun y => y.2.2.takes p) with
    | none => { s with stepInbox := s.stepInbox ++ [p] }
    | some (c, j, x) => if p.count ≠ x.n then s.failStep c j 3 x.buf else s.onStep c j (fun x => x.take p))

/-- One element's combine (R222). -/
def combineElem (code : Nat) (mine theirs : Word32) : Word32 :=
  match code with
  | 0 => BitVec.ofNat 32 (f32Fmt.round .rne false (FVal.add false (f32Fmt.decode mine.toNat) (f32Fmt.decode theirs.toNat)))
  | 1 => BitVec.ofNat 32 (minMax f32Fmt true false mine.toNat theirs.toNat)
  | 2 => BitVec.ofNat 32 (minMax f32Fmt false false mine.toNat theirs.toNat)
  | _ => theirs

/-- A step has its source, has sent its elements and has every value of its partner. -/
def StepOp.ready (x : StepOp) : Bool := x.mine.isSome && x.send.isEmpty && x.got.length == x.n && x.results.isNone

/-- STEP_RESULTS_FORMED (R222, R223): before the deadline, the results of a step stand. -/
def execStepResultsFormed (core slot : Nat) (s : State) : Host.Outcome State Fault Refusal :=
  .next (match s.stepAt core slot with
    | none => s
    | some x =>
      if !x.ready || x.deadline.toNat ≤ s.ptime.toNat then s
      else
        let res := ((x.mine.getD []).zip x.got).map (fun e => combineElem (fieldOf x.word.mod 7 3) e.1 e.2.2)
        if x.last then
          let used := if x.first then 0 else (((s.chain x.ctx x.tag).held).map List.length).getD 0
          (s.onChain x.ctx x.tag (fun c => c.discard x.gen)).onStep core slot (fun x =>
            { x with results := some res, prior := used, outs := (linePieces (ptrOff x.out) (x.n * 4)).map (fun c => (c.1, c.2, none)) })
        else
          let s := s.onChain x.ctx x.tag (fun c => { c with held := some res, heldGen := x.gen })
          s.closeStep core slot x none false)

/-- A step whose OUT is acknowledged completes (R392). -/
def State.checkStep (s : State) (core slot : Nat) : State :=
  match s.stepAt core slot with
  | none => s
  | some x =>
    if x.results.isNone || !x.outs.isEmpty then s
    else
      match x.error with
      | some (c, a) => s.failStep core slot c a
      | none => s.closeStep core slot x none false

/-- Bytes of a piece of OUT. -/
def StepOp.outBytes (x : StepOp) (off len : Nat) : List Byte :=
  (((x.results.getD []).flatMap (fun v => leBytes 4 v.toNat)).drop off).take len

/-- A piece of OUT has been written or has failed. -/
def State.endOut (s : State) (core slot off : Nat) (err : Option (Nat × Word64)) : State :=
  (s.onStep core slot (fun x =>
    { x with outs := x.outs.filter (fun o => o.1 != off), error := match x.error with | some e => some e | none => err })).checkStep core slot

/-- Write a piece of OUT at its home: at the physical address to which it was sent, or where it translates now. -/
def State.writeOut (s : State) (core slot : Nat) (x : StepOp) (off len : Nat) (pa : Option Nat) : State :=
  let p := ptrWithOff x.out (ptrOff x.out + off)
  let w := match pa with
    | some pa => (Wrote.start s).intoXlat core x.ctx x.slot p ⟨pa, 0, 0⟩ (x.outBytes off len)
    | none => (Wrote.start s).intoPtr core x.ctx 0 x.slot p (x.outBytes off len) x.descs
  if w.wait then s
  else match w.hold with
  | some (q, m) => (w.s.onStep core slot (fun x =>
      { x with hold := some q, outs := x.outs.map (fun o => if o.1 = off then (o.1, o.2.1, none) else o) })).reportHold
        core x.ctx x.slot x.prec x.age x.pc q.ptr m
  | none => w.s.endOut core slot off w.err

/-- The first piece of OUT that has not been sent, with its remote address if it has one. -/
def State.nextOut (s : State) (core : Nat) (x : StepOp) : Option (Nat × Nat × Option Nat) :=
  match x.outs.find? (fun o => o.2.2.isNone) with
  | none => none
  | some o =>
    match s.remoteSide core x.ctx (.ptr (ptrWithOff x.out (ptrOff x.out + o.1))) .write x.descs with
    | .ok (pa, _) => some (o.1, o.2.1, pa)
    | .error _ => some (o.1, o.2.1, none)

/-- Send a piece of OUT that lies on another module; step data are charged to no window (R388). -/
def State.sendOut (s : State) (core slot : Nat) (x : StepOp) : State :=
  match x.hold, s.nextOut core x with
  | none, some (off, len, some pa) =>
    if s.mayLower x.ctx (paModule pa) 0 pa len 0 then
      let tag := s.nextTag
      let s := { (s.onStep core slot (fun x => { x with outs := x.outs.map (fun o => if o.1 = off then (o.1, o.2.1, some tag) else o) })) with nextTag := tag + 1 }
      s.sendLower tag ⟨core, x.ctx, paModule pa, 0, false, pa, byteMask (pa % 128) len, ptrWithOff x.out (ptrOff x.out + off), .step slot off len, none, 0⟩ 0 0 (x.outBytes off len)
    else s
  | _, _ => s

/-- STEP_OUT_ACK (R392): the next piece of OUT within the module is acknowledged, or fails. -/
def execStepOutAck (core slot : Nat) (outcome : AckOutcome) (s : State) : Host.Outcome State Fault Refusal :=
  .next (match s.stepAt core slot with
    | none => s
    | some x =>
      match x.hold, s.nextOut core x with
      | none, some (off, len, none) =>
        match outcome with
        | .done => s.writeOut core slot x off len none
        | .failed c => s.endOut core slot off (some (c, ptrWithOff x.out (ptrOff x.out + off)))
      | _, _ => s)

/-- STEP_DEADLINE (R223): a step that has not formed its results by its deadline ends with fabric timeout. DESIGN CHOICE (log
42): the failing address of a step that ends by timeout, by a mismatched N or by the held length is its descriptor's BUF. -/
def execStepDeadline (core slot : Nat) (s : State) : Host.Outcome State Fault Refusal :=
  .next (match s.stepAt core slot with
    | none => s
    | some x => if x.results.isNone && x.deadline.toNat ≤ s.ptime.toNat then s.failStep core slot 14 x.buf else s)

/-- STEP_ABORT_RECEIVE (R224, R393). -/
def execStepAbortReceive (peer job chain step : Nat) (s : State) : Host.Outcome State Fault Refusal :=
  .next (match s.allSteps.find? (fun y => y.2.2.peer == peer && y.2.2.job == job && y.2.2.tag == chain && y.2.2.index == step) with
    | none => s
    | some (c, j, _) => s.abortStep c j false)

/-! ### Answers to lower-deck requests (R386, R388) -/

/-- A request is no longer outstanding. -/
def State.dropLower (s : State) (tag : Nat) (w : Window) (r : LowerReq) : State :=
  { (s.setWindow r.ctx r.peer w) with lower := tabDel s.lower tag }

/-- The bytes that a request's answer carries stand at its destination as it was performed (R383). -/
def State.lowerData (s : State) (r : LowerReq) (data : List Byte) : State :=
  if data.isEmpty ∨ data.length ≠ maskCount r.mask then s
  else s.rawWriteLine (s.forward (paLine r.pa)) (spreadBytes r.mask data) r.mask

/-- What a request was sent for has been performed at its destination. -/
def State.lowerDone (s : State) (tag : Nat) (r : LowerReq) : State :=
  match r.kind with
  | .copy slot => s.copyReturns r.core slot tag r.reads
  | .att id lane =>
    let (v, s) := s.attPerform r.core id lane r.pa
    s.attReturns r.core id lane (v.mapError (fun c => (c, r.ptr)))
  | .step slot off len =>
    match s.stepAt r.core slot with
    | some x => s.writeOut r.core slot x off len (some r.pa)
    | none => s

/-- Address of a request's error: the packet's for class late packet (R406, log 202), else the pointer of the access. -/
def LowerReq.errorAt (r : LowerReq) (cls : Nat) : Word64 := if cls = 15 then BitVec.ofNat 64 r.pa else r.ptr

/-- A request ends in an error of a class. -/
def State.lowerFailed (s : State) (tag cls : Nat) (r : LowerReq) : State :=
  match r.kind with
  | .copy slot => s.copyRefused r.core slot tag cls (r.errorAt cls)
  | .att id lane => s.attReturns r.core id lane (.error (cls, r.errorAt cls))
  | .step slot off _ => s.endOut r.core slot off (some (cls, r.errorAt cls))

/-- The effect at the destination of a request whose answer does not count. -/
def State.lowerEffect (s : State) (tag : Nat) (r : LowerReq) : State :=
  match r.kind with
  | .copy slot =>
    match s.flyOf r.core slot tag with
    | some (c, f) => if r.reads then s else (s.writePieces r.core slot c f.op.pieces (f.data.getD [])).s
    | none => s
  | .att id lane => (s.attPerform r.core id lane r.pa).2
  | .step slot off len =>
    match s.stepAt r.core slot with
    | some x => ((Wrote.start s).intoXlat r.core x.ctx x.slot r.ptr ⟨r.pa, 0, 0⟩ (x.outBytes off len)).s
    | none => s

/-- What waited for a window may be sent. -/
def State.afterLower (s : State) (core : Nat) : State := (s.sendAtts).sendHeld (core / 4)

/-- LOWER_COMPLETION (R386, R388): the answer of a request that is outstanding; a later one is discarded. A request that no window
was charged for gives no sample. -/
def execLowerCompletion (tag : Nat) (result : LowerResult) (s : State) : Host.Outcome State Fault Refusal :=
  .next (match tabFind s.lower tag with
    | none => s
    | some r =>
      match r.sent with
      | none => s
      | some t =>
        let w := s.window r.ctx r.peer
        let s := s.dropLower tag (if r.bytes = 0 then w else w.complete r.bytes (s.ptime - t).toNat s.ptime) r
        let s := match result with
          | .performed d => (s.lowerData r d).lowerDone tag r
          | .error c => s.lowerFailed tag c r
        s.afterLower r.core)

/-- The job of a context is switched out: its deadlines are frozen (R403). -/
def State.frozen (s : State) (x : Nat) : Bool := s.stopped.contains (s.ctx x).job.toNat

/-- FABRIC_TIMEOUT (R386): at its deadline a request ends with fabric timeout; what it asked may have been performed. -/
def execFabricTimeout (tag : Nat) (performed : Bool) (s : State) : Host.Outcome State Fault Refusal :=
  .next (match tabFind s.lower tag with
    | none => s
    | some r =>
      if r.sent.isNone || s.ptime.toNat < r.deadline.toNat || s.frozen r.ctx then s
      else
        let w := s.window r.ctx r.peer
        let s := if performed then s.lowerEffect tag r else s
        let s := s.dropLower tag { w with out := w.out - r.bytes } r
        (s.lowerFailed tag 14 r).afterLower r.core)

end Sys2Proof.Machine
end

