-- ==== Sys2Proof/Machine/System.lean ====
section
/-! DEFINITION. Sys2Proof/Machine/System.lean: TRAP, TRET, BRKPT, PKEYW, CAPSUB (R227–R231) and LAUNCH with the launch
queues (R226, R325, R326). Taking a trapping fault is `State.trapFault` (Path.lean). -/

namespace Sys2Proof.Machine

/-! ### TRAP, BRKPT and TRET (R227, R229) -/

/-- TRAP (R227). -/
def execTrap (f : FmtI) (s : State) : Host.Outcome State Fault Refusal :=
  s.issue (.trap f) f.guard always always (fun e s => s.lanesFault e e.act 17 e.pc 0 f.imm.toNat)

/-- BRKPT (R227): the Active lanes park for the host handler, which resumes them at the next word. -/
def execBrkpt (f : FmtI) (s : State) : Host.Outcome State Fault Refusal :=
  s.issue (.brkpt f) f.guard always always (fun e s =>
    let next := e.q.place.after
    let (s, a) := s.recordFault e.core e.slot
      ⟨18, lowestLane e.act, 0, 0, false, e.prec, e.slot, e.core, e.pc, e.pc, e.act, f.imm.toNat⟩
    let s := s.onPrec e.core e.slot e.prec (fun q => { q with place := next })
    (s.parkLanes e.core e.slot e.prec e.act next 6 a [] 18).settle e.core e.slot)

/-- The path is in trap (R229). -/
def inTrap (e : Iss) (_ : State) : Bool := e.q.trap.isSome

/-- TRET (R229). -/
def execTret (f : FmtA) (s : State) : Host.Outcome State Fault Refusal :=
  s.issue (.tret f) f.guard always inTrap (fun e s =>
    if e.act ≠ e.q.lanes then s.uniformity e (fun _ => (0, false))
    else
      match e.q.trap with
      | none => s.illegal e
      | some ret => s.trapReturn e.core e.slot e.prec ret (f.mod.getLsbD 7))

/-! ### PKEYW and CAPSUB (R230, R231, R348) -/

/-- Park for something that is performed at once: the record is woken with its result. -/
def State.parkDone (s : State) (e : Iss) (op : Nat) (v : Word64) : State :=
  (s.parkIss e 10 (BitVec.ofNat 64 op)).wakeWith e.core e.slot e.prec v

/-- PKEYW (R230). -/
def execPkeyw (f : FmtA) (s : State) : Host.Outcome State Fault Refusal :=
  s.issue (.pkeyw f) f.guard always always (fun e s =>
    if e.q.answer.isSome then s.after e
    else (s.setCtx e.g.ctx { s.ctx e.g.ctx with pkr := e.uni f.a }).parkDone e 0xF3 0)

/-- The descriptor of a sub-object (R348). -/
def subDesc (w : DescWord) (d : Desc) (mask : BitVec 3) (len off : Nat) : DescWord :=
  BitVec.ofNat 256 (1 + (if d.tensor then 2 else 0) + (if d.rd && mask.getLsbD 0 then 4 else 0) + (if d.wr && mask.getLsbD 1 then 8 else 0) +
    (if d.atom && mask.getLsbD 2 then 16 else 0) + 32 + fieldOf w 6 3 * 2 ^ 6 + len * 2 ^ 64 + d.root * 2 ^ 128 +
    (d.bias + off) % 2 ^ 40 * 2 ^ 192)

/-- The descriptor of an object is a derivation slot of the context. -/
def State.isSlot (s : State) (core x obj : Nat) : Bool × State :=
  match s.lookupDesc core x obj with
  | (some w, s) => (w.getLsbD 5, s)
  | (none, s) => (false, s)

/-- Write a descriptor; every cached copy is dropped (R349). -/
def State.writeDesc (s : State) (core x obj : Nat) (w : DescWord) : Except PortFault State :=
  let pa := (s.root x).otbase + 32 * obj
  let r := s.homeRef ⟨paLine pa, paModule pa⟩
  match s.agentWrite (s.coreAgent core) r (placeBytes (pa % 128) (leBytes 32 w.toNat)) (byteMask (pa % 128) 32)
      (s.isSync r.line) (s.ctx x).cos.toNat none with
  | .ok s => .ok s
  | .error c => .error (portOf c)

/-- CAPSUB (R231). DESIGN CHOICE (log 195): the address of the rights fault of a slot that is no derivation slot is the pointer that D
would have received; the spec names none. -/
def execCapsub (f : FmtA) (s : State) : Host.Outcome State Fault Refusal :=
  s.issue (.capsub f) f.guard always always (fun e s =>
    match e.q.answer with
    | some v => s.result e (fun g => g.writeUni f.d e.act v)
    | none =>
      let p := e.uni f.a
      let b := e.uni f.b
      let len := fieldOf b 0 40
      let slot := fieldOf b 40 22
      if 1 < ptrTag p then s.lanesFault e e.act 2 p 0 0
      else
        let (w, s) := s.lookupDesc e.core e.g.ctx (ptrObj p)
        match w, w.bind (fun w => decodeDesc w (ptrTag p == 1)) with
        | some w, some d =>
          if d.length < ptrOff p + len then s.lanesFault e e.act 3 p 0 0
          else
            let (ok, s) := s.isSlot e.core e.g.ctx slot
            let q : Word64 := BitVec.ofNat 64 (ptrTag p * 2 ^ 62 + slot * 2 ^ 40)
            if !ok then s.lanesFault e e.act 4 q 0 0
            else
              match s.writeDesc e.core e.g.ctx slot (subDesc w d (f.mod.extractLsb' 7 3) len (ptrOff p)) with
              | .ok s => s.parkDone e 0xF4 q
              | .error x => s.portFault e.core e.slot e.prec e.act e.q.place q x
        | _, _ => s.lanesFault e e.act 3 p 0 0)

/-! ### Launch queues (R325, R326) -/

/-- A queue-table entry. -/
def State.queue (s : State) (n : Nat) : Queue := tabGet Queue.reset s.queues n
/-- Replace a queue-table entry. -/
def State.setQueue (s : State) (n : Nat) (q : Queue) : State := { s with queues := tabSet Queue.reset s.queues n q }

/-- Slots are counted by a LOGN from 1 to 12; any other value disables the queue. -/
def Queue.usable (q : Queue) : Bool := q.en && 1 ≤ q.logn.toNat && q.logn.toNat ≤ 12

/-- The enabled queue of a context at a queue pointer. -/
def State.queueAt (s : State) (x : Nat) (p : Word64) : Option Nat :=
  (s.queues.find? (fun q => q.2.usable && q.2.qptr == p && q.2.ctx.toNat == x)).map Prod.fst

/-- Read a 64-bit word of a queue object. -/
def State.queueWord (s : State) (x : Nat) (p : Word64) (off : Nat) : Except PortFault (Nat × State) := do
  let (bs, s) ← s.sysRead 0 x (ptrWithOff p (ptrOff p + off)) 8
  return (leNat bs, s)

/-- Pointer of a slot. -/
def slotPtr (p : Word64) (logn n : Nat) : Word64 := ptrWithOff p (ptrOff p + 256 + 256 * (n % 2 ^ logn))

/-- Publish a record in a queue: the sequence number, none where it is full; nothing while a host producer holds RESERVE. -/
def State.enqueueLaunch (s : State) (core x n : Nat) (record : Word64) : Except PortFault (Option (Option Nat) × State) := do
  let q := s.queue n
  let (tail, s) ← s.queueWord x q.qptr 128
  let (reserve, s) ← s.queueWord x q.qptr 136
  let (head, s) ← s.queueWord x q.qptr 0
  if reserve ≠ tail then return (none, s)
  else if tail - head = 2 ^ q.logn.toNat then return (some none, s)
  else
    let (bs, s) ← s.sysRead core x record 256
    let s ← s.sysWrite core x (slotPtr q.qptr q.logn.toNat tail) bs
    let s ← s.sysWrite core x (ptrWithOff q.qptr (ptrOff q.qptr + 128)) (leBytes 8 (tail + 1) ++ leBytes 8 (tail + 1))
    return (some (some tail), s.enqueue [.schedulerTailReread n])

/-- The record is read at the memory port of the group's core, lines in order. -/
def State.recordCheck (s : State) (e : Iss) (p : Word64) : Except PortFault State :=
  (linePieces (ptrOff p) 256).foldlM (fun (s : State) c => do
    let q := ptrWithOff p (ptrOff p + c.1)
    let (_, _, s) ← s.l2Read e.core e.g.ctx q (byteMask (ptrOff q % 128) c.2) false false .read
    return s) s

/-- LAUNCH (R226): checked, released and parked until it is performed. -/
def execLaunch (f : FmtA) (s : State) : Host.Outcome State Fault Refusal :=
  s.issue (.launch f) f.guard always always (fun e s =>
    match e.q.answer with
    | some v => s.result e (fun g => g.writeUni f.d e.act v)
    | none => s.whenDrained e (fun s =>
      let a := e.uni f.a
      let b := e.uni f.b
      if ptrTag a ≠ 0 then s.lanesFault e e.act 2 a 0 0
      else
        match s.checkAddress e.core e.g.ctx e.g.team b false 256 256 .control .read false with
        | (some c, s) => s.lanesFault e e.act c b 0 0
        | (none, s) =>
        if (s.queueAt e.g.ctx a).isNone then s.lanesFault e e.act 4 a 0 0
        else
          let s := s.releaseCore e.core e.g.ctx
          match s.recordCheck e b with
          | .error x => s.portFault e.core e.slot e.prec e.act e.q.place b x
          | .ok s =>
            ((s.parkIss e 10 0xE3).onPrec e.core e.slot e.prec (fun q => { q with waitPtrs := [a, b] })).enqueue
              [.launchEnqueue e.core e.slot e.prec]))

/-- LAUNCH_ENQUEUE (R326): a parked LAUNCH is performed at the queue's tail line; one of a context that is away reissues on
the restore (R343), and one of a context that ends enqueues nothing. -/
def execLaunchEnqueue (core slot rec' : Nat) (s : State) : Host.Outcome State Fault Refusal :=
  .next (match s.group core slot with
    | none => s
    | some g =>
      let q := g.prec rec'
      match q.state, q.waitPtrs, q.answer with
      | .parked, [a, b], none =>
        if q.reason ≠ 10 ∨ q.obj ≠ 0xE3 ∨ 512 ≤ core ∨ (s.ctx g.ctx).state = .ending then s
        else
          match s.queueAt g.ctx a with
          | none => s.wakeWith core slot rec' (BitVec.ofNat 64 (2 ^ 62))
          | some n =>
            match s.enqueueLaunch core g.ctx n b with
            | .error _ => s
            | .ok (none, s) => s
            | .ok (some none, s) => s.wakeWith core slot rec' (BitVec.ofNat 64 (2 ^ 63))
            | .ok (some (some t), s) => s.wakeWith core slot rec' (BitVec.ofNat 64 t)
      | _, _, _ => s)

end Sys2Proof.Machine
end

