-- ==== Sys2Proof/Machine/Net.lean ====
section
/-! DEFINITION. Sys2Proof/Machine/Net.lean: NPOST (R225), protection domains, regions and queue pairs (R411, R412), the
verbs and their completions (R413, R414), sequence numbers and duplicates (R415), host and Ethernet links (R409, R410). -/

namespace Sys2Proof.Machine

/-! ### Queue pairs and regions (R411, R412) -/

/-- A queue pair. -/
def State.qp (s : State) (n : Nat) : QueuePair := tabGet QueuePair.reset s.qps n
/-- Replace a queue pair. -/
def State.setQp (s : State) (n : Nat) (q : QueuePair) : State := { s with qps := tabSet QueuePair.reset s.qps n q }
/-- Queue pairs of the module. -/
def qpCount : Nat := 4096
/-- Payload bytes of a packet. -/
def QueuePair.payload (q : QueuePair) : Nat := 1024 * 2 ^ q.mtu
/-- A packet that it sent is not acknowledged. -/
def QueuePair.awaits (q : QueuePair) : Bool := q.out.any (fun r => r.psn.isSome && !r.packets.isEmpty)
/-- 4 × BASE has passed with no progress (R415). -/
def QueuePair.late (q : QueuePair) (now : Word64) : Bool := q.awaits && decide (4 * q.base ≤ (now - q.since).toNat)
/-- The pair takes requests: ready, and with an MTU. -/
def QueuePair.takes (q : QueuePair) : Bool := q.valid && q.st == 1 && q.mtu != 3

/-- A region entry. -/
structure Region where
  /-- VALID -/
  valid : Bool
  /-- LW -/
  lw : Bool
  /-- RR -/
  rr : Bool
  /-- RWR -/
  rwr : Bool
  /-- PD -/
  pd : Nat
  /-- KEY -/
  key : Word32
  /-- BASE -/
  base : Word64
  /-- LEN -/
  len : Nat
  deriving DecidableEq, Repr

/-- The region entry that a key indexes. -/
def State.region (s : State) (key : Word32) : Region :=
  let x : BitVec 256 := tabGet 0 s.regions (fieldOf key 0 16)
  ⟨x.getLsbD 0, x.getLsbD 1, x.getLsbD 2, x.getLsbD 3, fieldOf x 16 8, x.extractLsb' 32 32, x.extractLsb' 64 64, fieldOf x 128 32⟩

/-- An incoming request is accepted on a region (R411). -/
def Region.accepts (r : Region) (key : Word32) (pd : Nat) (right : Region → Bool) (off len : Nat) : Bool :=
  r.valid && r.key == key && r.pd == pd && right r && off + len ≤ r.len

/-- The context through whose object space the pointers of a job are resolved: every context of a job has one table. -/
def State.jobCtx (s : State) (job : Nat) : Option Nat := (s.ctxs.find? (fun c => c.2.valid && c.2.job.toNat == job)).map Prod.fst

/-! ### Bytes in memory, checked against no PKR -/

/-- Read bytes of a pointer, its translation alone. -/
def State.netRead (s : State) (x : Nat) (p : Word64) (n : Nat) : Except SideFault (List Byte × State) :=
  (linePieces (ptrOff p) n).foldlM (fun (acc : List Byte × State) c =>
    let q := ptrWithOff p (ptrOff p + c.1)
    match acc.2.sysPort 0 x q with
    | .error f => .error (f.side q)
    | .ok (t, s) =>
      if ptrTag p = 1 then
        match s.ctlRead (paLine t.pa) with
        | .error k => .error (.cls k q)
        | .ok d => .ok (acc.1 ++ lineBytes d (t.pa % 128) c.2, s)
      else
        let r := s.homeRef t.ref
        match (s.promoteLine r.line).agentRead (s.coreAgent 0) r (byteMask (ptrOff q % 128) c.2) (s.ctx x).cos.toNat with
        | .error k => .error (.cls k q)
        | .ok (d, s) => .ok (acc.1 ++ lineBytes d (t.pa % 128) c.2, s)) ([], s)

/-- Write bytes of a pointer, its translation alone. -/
def State.netWrite (s : State) (x : Nat) (p : Word64) (bs : List Byte) : Except SideFault State :=
  (linePieces (ptrOff p) bs.length).foldlM (fun (s : State) c =>
    let q := ptrWithOff p (ptrOff p + c.1)
    let b := (bs.drop c.1).take c.2
    match s.sysPort 0 x q with
    | .error f => .error (f.side q)
    | .ok (t, s) =>
      if ptrTag p = 1 then
        match s.ctlWrite (paLine t.pa) (placeBytes (t.pa % 128) b) (byteMask (t.pa % 128) b.length) with
        | .error k => .error (.cls k q)
        | .ok s => .ok s
      else
        let r := s.homeRef t.ref
        match (s.promoteLine r.line).agentWrite (s.coreAgent 0) r (placeBytes (t.pa % 128) b) (byteMask (t.pa % 128) b.length)
            (s.isSync r.line) (s.ctx x).cos.toNat none with
        | .error k => .error (.cls k q)
        | .ok s => .ok s) s

/-! ### Completion of a request (R225, R414) -/

/-- A hold that ends at the next cycle: the die makes no new translation of the page yet (R378). It awaits no table word: 0 is
the address of none. -/
def waitHold (p : Word64) : Hold := ⟨p, [0]⟩

/-- Where writing holds, and the report that the hold makes: malformed or not, none for a wait. -/
def Wrote.held (w : Wrote) : Option (Hold × Option Bool) :=
  if w.wait then some (waitHold 0, none) else w.hold.map (fun h => (h.1, some h.2))

/-- Report that a request is held, where that is reported (R196). -/
def State.reportNet (s : State) (r : NetReq) (h : Hold) (m : Option Bool) : State :=
  match m with
  | some m => s.reportHold r.core r.ctx r.slot r.prec r.age r.pc h.ptr m
  | none => s

/-- A completion word: length, status and request sequence (R225). -/
def NetReq.wordBytes (r : NetReq) (status : Nat) : List Byte :=
  leBytes 8 (r.len % 2 ^ 32 + status % 256 * 2 ^ 32 + (r.seq % 2 ^ 24) * 2 ^ 40)

/-- A request completes: its completion word is written, as an engine of its context writes (R354), and its barrier credited.
A nonzero status is an error. Where the word's page is not present the request is held there and ends later (R196). -/
def State.netComplete (s : State) (n : Nat) (r : NetReq) (status : Nat) : State :=
  let w : Wrote :=
    match r.word with
    | none => Wrote.start s
    | some p => (Wrote.start s).intoPtr r.core r.ctx 0 r.slot p (r.wordBytes status) r.descs
  match w.held with
  | some (h, m) =>
    let q := w.s.qp n
    (w.s.setQp n { q with ends := q.ends ++ [({ r with hold := some h }, status)] }).reportNet r h m
  | none =>
    let s := match w.err with
      | none => w.s
      | some (c, a) => w.s.engineError r.core r.ctx r.slot r.prec r.age r.pc c 0 a 0
    s.creditBar r.core r.ctx r.slot r.prec r.age r.pc r.bar r.len (status != 0 || w.err.isSome)

/-- Requests of a pair that complete in order with a status. -/
def State.completeAll (s : State) (n : Nat) (rs : List NetReq) (status : Nat) : State := rs.foldl (fun s r => s.netComplete n r status) s

/-- A pair enters a state and its requests complete with status 5. -/
def State.flushQp (s : State) (n st : Nat) : State :=
  let q := s.qp n
  (s.setQp n { q with st := st, out := [], tries := 0 }).completeAll n q.out 5

/-! ### Sending a request (R413, R414) -/

/-- Packets of a request. -/
def NetReq.split (r : NetReq) (q : QueuePair) (bs : List Byte) : List RdmaPacket :=
  let one (i : Nat) (last : Bool) (b : List Byte) : RdmaPacket :=
    ⟨q.rqpn, (q.spsn + i) % 2 ^ 24, r.verb, r.key, r.remote.toNat + i * q.payload, r.len, b, last, r.imm⟩
  match r.verb with
  | .read => [one 0 true []]
  | _ =>
    let k := max 1 (ceilDiv r.len q.payload)
    (List.range k).map (fun i => one i (i + 1 == k) ((bs.drop (i * q.payload)).take q.payload))

/-- Send a request: its source is read, as an engine of its context reads (R354), and its packets go out. A source that does not
translate holds it; one that cannot be read ends it. -/
def State.netSend (s : State) (n : Nat) (r : NetReq) : State :=
  let q := s.qp n
  let src : Except SideFault (List Byte × State) := if r.verb = .read then .ok ([], s) else s.sideRead r.core r.ctx (.ptr r.ptr) r.len r.descs
  match src with
  | .ok (bs, s) =>
    let ps := r.split q bs
    let r := { r with psn := some q.spsn, packets := ps, hold := none, sent := s.ptime }
    { (s.setQp n { q with
        spsn := (q.spsn + ps.length) % 2 ^ 24
        out := q.out.map (fun o => if o.seq = r.seq then r else o)
        since := if q.awaits then q.since else s.ptime }) with
      netOut := (ps.map (fun p => NetOut.request n p)).reverse ++ s.netOut }
  | .error (.hold h m) =>
    (s.setQp n { q with out := q.out.map (fun o => if o.seq = r.seq then { r with hold := some h } else o) }).reportNet r h (some m)
  | .error .wait => s.setQp n { q with out := q.out.map (fun o => if o.seq = r.seq then { r with hold := some (waitHold r.ptr) } else o) }
  | .error (.cls c p) =>
    let (v, s) := s.free
    let s := s.engineError r.core r.ctx r.slot r.prec r.age r.pc c 0 p 0
    let s := s.setQp n { s.qp n with out := (s.qp n).out.filter (fun o => o.seq != r.seq) }
    -- the status of a request whose source cannot be read is not stated: it is a free value
    s.netComplete n r (1 + fieldOf v 0 8 % 255)

/-- Requests of a pair start in order: the next one that has not been sent, unless an earlier one is held. -/
def State.netStart (s : State) (n : Nat) : State :=
  match (s.qp n).out.find? (fun r => r.psn.isNone) with
  | some r => if r.hold.isSome then s else s.netSend n r
  | none => s

/-- Verb of a code. -/
def verbOf (c : Nat) : RdmaVerb := if c = 0 then .write else if c = 1 then .writei else if c = 2 then .read else .send

/-- Issue-time checks of NPOST (R225, R412). DESIGN CHOICE (log 184): the address of the rights fault of a queue pair that is not
of the context's job is the value of s(c+3), which names the pair. -/
def npostChecks (f : FmtA) (e : Iss) (s : State) : List Check :=
  let p := e.desc f 0
  let len := fieldOf (e.desc f 2) 0 32
  let qp := fieldOf (e.desc f 3) 0 24
  let w := e.uni f.b
  let local_ : Check :=
    if 1 < ptrTag p then some (2, p)
    else if 2 ^ 31 < len then some (3, p)
    else (s.checkAddress e.core e.g.ctx e.g.team p false len 1 (if ptrTag p = 1 then .tensor else .control)
      (if fieldOf f.mod 7 3 = 2 then .write else .read) false).1.map (fun c => (c, p))
  let word : Check :=
    if f.b.toNat = 0xF8 then none
    else (s.checkAddress e.core e.g.ctx e.g.team w false 8 8 .control .write false).1.map (fun c => (c, w))
  [local_, word, if qpCount ≤ qp ∨ (s.qp qp).job ≠ (s.ctx e.g.ctx).job.toNat then some (4, e.desc f 3) else none]

/-- NPOST (R225, R413). -/
def execNpost (f : FmtA) (s : State) : Host.Outcome State Fault Refusal :=
  s.issue (.npost f) f.guard always always (fun e s =>
    match s.checksThenBar e (npostChecks f e s) (if f.a.toNat = 0xF8 then none else some (e.uni f.a)) with
    | .error (c, a) => s.lanesFault e e.act c a 0 0
    | .ok bar =>
      if !(s.core e.core).pendRoom bar then s.parkIss e 10 0xE2
      else
        let n := fieldOf (e.desc f 3) 0 24
        let q := s.qp n
        let r : NetReq :=
          { seq := q.reqs + 1, verb := verbOf (fieldOf f.mod 7 3), ctx := e.g.ctx, launch := e.g.launch, core := e.core, slot := e.slot
            prec := e.prec, age := e.g.age, pc := e.pc, bar := bar, word := if f.b.toNat = 0xF8 then none else some (e.uni f.b)
            ptr := e.desc f 0, remote := e.desc f 1, len := fieldOf (e.desc f 2) 0 32, key := (e.desc f 2).extractLsb' 32 32
            imm := (e.desc f 3).extractLsb' 32 32, psn := none, packets := [], placed := 0, place := [], hold := none, sent := 0
            descs := s.descsOf e.core e.g.ctx (e.desc f 0 :: (if f.b.toNat = 0xF8 then [] else [e.uni f.b])) }
        let s := s.onCore e.core (fun k => k.barAccept bar)
        let s := s.setQp n { q with reqs := q.reqs + 1 }
        let s := if !q.takes then s.netComplete n r 5
          else if r.verb = .send ∧ q.payload < r.len then s.netComplete n r 2
          else (s.setQp n { s.qp n with out := q.out ++ [r] }).netStart n
        s.after e)

/-! ### Answers to requests (R414, R415) -/

/-- Every packet of a request is acknowledged, and for a .read every byte placed (R414). -/
def NetReq.done (r : NetReq) : Bool := r.psn.isSome && r.packets.isEmpty && (r.verb != .read || r.len ≤ r.placed)

/-- Requests of a pair that are done complete; one that waits its turn starts. -/
def State.netRetire (s : State) (n : Nat) : State :=
  let q := s.qp n
  ((s.setQp n { q with out := q.out.filter (fun r => !r.done) }).completeAll n (q.out.filter NetReq.done) 0).netStart n

/-- Bytes of pieces. -/
def pieceBytes (ps : List (Nat × List Byte)) : Nat := (ps.map (fun p => p.2.length)).foldl (· + ·) 0

/-- Place response bytes at a request's local pointer until one piece cannot be placed: what happened, and the pieces left. Each
is checked as an engine write of the request's context (R354, R413). -/
def State.placePieces (s : State) (r : NetReq) : List (Nat × List Byte) → Wrote × List (Nat × List Byte)
  | [] => (Wrote.start s, [])
  | (off, bs) :: rest =>
    let w := (Wrote.start s).intoPtr r.core r.ctx 0 r.slot (ptrWithOff r.ptr (ptrOff r.ptr + off)) bs r.descs
    if w.held.isSome || w.err.isSome then (w, (off, bs) :: rest) else w.s.placePieces r rest

/-- Place the response bytes that a .read has waiting: a page that is not present holds the request at that line, an error ends
it with status 4 (R196, R355, R414). -/
def State.netPlace (s : State) (n seq : Nat) : State :=
  match (s.qp n).out.find? (fun r => r.seq == seq) with
  | none => s
  | some r =>
    if r.hold.isSome then s
    else
      let (w, rest) := s.placePieces r r.place
      let r := { r with place := rest, placed := r.placed + (pieceBytes r.place - pieceBytes rest), hold := w.held.map Prod.fst }
      let q := w.s.qp n
      match w.err, w.held with
      | some (c, a), _ =>
        let s := w.s.engineError r.core r.ctx r.slot r.prec r.age r.pc c 0 a 0
        let s := (s.setQp n { s.qp n with out := (s.qp n).out.filter (fun o => o.seq != seq) }).netComplete n r 4
        s.netRetire n
      | none, some (h, m) =>
        (w.s.setQp n { q with out := q.out.map (fun o => if o.seq = seq then r else o) }).reportNet r h m
      | none, none =>
        (w.s.setQp n { q with out := q.out.map (fun o => if o.seq = seq then r else o) }).netRetire n

/-- What a pair has held and may be tried again is: completion words, response bytes, sources. -/
def State.netResume (s : State) (n : Nat) : State :=
  let q := s.qp n
  let s := (q.ends.filter (fun e => e.1.hold.isNone)).foldl (fun s e => s.netComplete n e.1 e.2)
    (s.setQp n { q with ends := q.ends.filter (fun e => e.1.hold.isSome) })
  let s := ((s.qp n).out.filter (fun r => r.hold.isNone && !r.place.isEmpty)).foldl (fun s r => s.netPlace n r.seq) s
  s.netStart n

/-- A packet is covered by an acknowledgement of every PSN up to one. -/
def ackCovers (psn upTo : Nat) : Bool := (upTo + 2 ^ 24 - psn) % 2 ^ 24 < 2 ^ 23

/-- A request once every packet up to a PSN is acknowledged. A .read keeps its packet until its bytes have come. -/
def NetReq.acked (r : NetReq) (upTo : Nat) : NetReq :=
  if r.verb = .read ∧ 0 < r.len then r else { r with packets := r.packets.filter (fun p => !ackCovers p.psn upTo) }

/-- Bytes of a .read that have come, placed or waiting to be. -/
def NetReq.came (r : NetReq) : Nat := r.placed + pieceBytes r.place

/-- A .read takes response bytes (log 204): those after the ones that have come; its packet is answered with the last. -/
def NetReq.takeBytes (r : NetReq) (off : Nat) (bs : List Byte) : NetReq :=
  if r.came < off ∨ r.len < off + bs.length then r
  else
    let more := bs.drop (r.came - off)
    let pieces := (linePieces (ptrOff r.ptr + r.came) more.length).map (fun c => (r.came + c.1, (more.drop c.1).take c.2))
    { r with place := r.place ++ pieces, packets := if r.len ≤ r.came + more.length then [] else r.packets }

/-- A pair has made progress (R415); requests with these packets answered give samples where they were sent once (R387). -/
def QueuePair.progress (q : QueuePair) (now : Word64) (rs : List NetReq) : QueuePair :=
  if rs.isEmpty then q
  else { q with tries := 0, since := now, base := if q.tries = 0 then (rs.map (fun r => (now - r.sent).toNat)).foldl min q.base else q.base }

/-- RDMA_ACK_RECEIVE (R414, R415): an acknowledgement covers every packet up to its PSN; an answer with an error status ends the
request of the packet it names, and response bytes go to the .read they name (log 204). -/
def execRdmaAckReceive (n : Nat) (a : RdmaAck) (s : State) : Host.Outcome State Fault Refusal :=
  .next (let q := s.qp n
    if !q.valid || q.st != 1 then s
    else if a.status ≠ 0 then
      match q.out.find? (fun r => r.packets.any (fun p => p.psn == a.psn)) with
      | none => s
      | some r =>
        ((s.setQp n { q.progress s.ptime [r] with out := q.out.filter (fun o => o.seq != r.seq) }).netComplete n r a.status).netRetire n
    else if a.bytes.isEmpty then
      let q1 := q.progress s.ptime (q.out.filter (fun r => (r.acked a.psn).packets.length != r.packets.length))
      (s.setQp n { q1 with out := q.out.map (fun r => r.acked a.psn) }).netRetire n
    else
      match q.out.find? (fun r => r.verb == .read && r.psn == some a.psn) with
      | none => s
      | some r =>
        let r1 := r.takeBytes a.offset a.bytes
        if r1.came = r.came then s
        else (s.setQp n { q.progress s.ptime [r] with out := q.out.map (fun o => if o.seq = r.seq then r1 else o) }).netPlace n r.seq)

/-- Resends at most. -/
def resendMax : Nat := 7

/-- RDMA_RESEND_TIMEOUT (R415): when 4 × BASE has passed with no progress, every unacknowledged packet is sent again; after seven
times the request ends and the pair is in error. -/
def execRdmaResendTimeout (n : Nat) (s : State) : Host.Outcome State Fault Refusal :=
  .next (let q := s.qp n
    let ps := q.out.flatMap NetReq.packets
    if !q.valid || q.st != 1 || !q.late s.ptime then s
    else if resendMax ≤ q.tries then
      match q.out.find? (fun r => r.psn.isSome && !r.packets.isEmpty) with
      | some r => ((s.setQp n { q with out := q.out.filter (fun o => o.seq != r.seq) }).netComplete n r 3).flushQp n 2
      | none => s
    else { (s.setQp n { q with tries := q.tries + 1, since := s.ptime }) with netOut := (ps.map (fun p => NetOut.request n p)).reverse ++ s.netOut })

/-! ### The responder (R411, R413–R415) -/

/-- A packet's request is accepted on its region; for a .send the pair's own region and place are judged when it is placed. -/
def State.packetOk (s : State) (q : QueuePair) (p : RdmaPacket) : Bool :=
  match p.verb with
  | .write => (s.region p.key).accepts p.key q.pd Region.rwr p.offset p.bytes.length
  | .writei => (s.region p.key).accepts p.key q.pd Region.rwr p.offset p.bytes.length
  | .read => (s.region p.key).accepts p.key q.pd Region.rr p.offset p.length
  | .send => true

/-- Write bytes at an offset of a region. -/
def State.intoRegion (s : State) (q : QueuePair) (key : Word32) (off : Nat) (bs : List Byte) : Except SideFault State :=
  match s.jobCtx q.job with
  | none => .error (.cls 3 0)
  | some x => let b := (s.region key).base; s.netWrite x (ptrWithOff b (ptrOff b + off)) bs

/-- Give the network an answer. -/
def State.netAnswer (s : State) (n : Nat) (a : RdmaAck) : State := { s with netOut := .answer n a :: s.netOut }

/-- The entry of a message in the receive completion ring (R413), written with a system-scope release. -/
def State.ringEntry (s : State) (q : QueuePair) (p : RdmaPacket) (seq : Nat) : State :=
  match s.jobCtx q.job with
  | none => s
  | some x =>
    let code := match p.verb with | .write => 0 | .writei => 1 | .read => 2 | .send => 3
    let at_ := ptrWithOff q.rcq (ptrOff q.rcq + 16 * ((seq - 1) % 2 ^ q.rcn))
    match s.sysWrite 0 x at_ (leBytes 4 p.imm.toNat ++ leBytes 4 p.length ++ leBytes 4 (q.rqpn % 2 ^ 24 + code * 2 ^ 24) ++ leBytes 4 seq) with
    | .ok s => s
    | .error _ => s

/-- EPSN passes a packet: a .send is placed, and the last packet of a message with a completion entry writes it. -/
def State.passPacket (s : State) (n : Nat) (p : RdmaPacket) : State :=
  let q := s.qp n
  let counts := p.last && (p.verb == .send || p.verb == .writei)
  let seq := q.msgs + 1
  let off := (seq - 1) % 2 ^ q.rcn * 4096
  let sendOk := p.verb != .send || (s.region q.rbuf).accepts q.rbuf q.pd Region.lw off p.bytes.length
  if !sendOk then s.netAnswer n ⟨p.psn, 1, [], 0⟩
  else
    let placed := if p.verb = .send then s.intoRegion q q.rbuf off p.bytes else .ok s
    match placed with
    | .error _ => s.netAnswer n ⟨p.psn, 2, [], 0⟩
    | .ok s =>
      if counts then (s.setQp n { s.qp n with msgs := seq }).ringEntry q p seq else s

/-- EPSN advances over every contiguous packet that has been placed. -/
def State.advanceEpsn (s : State) (n : Nat) : Nat → State
  | 0 => s
  | fuel + 1 =>
    let q := s.qp n
    match tabFind q.seen q.epsn with
    | none => s
    | some p =>
      ((s.setQp n { q with seen := tabDel q.seen q.epsn, epsn := (q.epsn + 1) % 2 ^ 24 }).passPacket n p).advanceEpsn n fuel

/-- Answer a .read from its region. -/
def State.answerRead (s : State) (n : Nat) (q : QueuePair) (p : RdmaPacket) : State :=
  if !s.packetOk q p then s.netAnswer n ⟨p.psn, 1, [], 0⟩
  else
    match s.jobCtx q.job with
    | none => s.netAnswer n ⟨p.psn, 2, [], 0⟩
    | some x =>
      let b := (s.region p.key).base
      match s.netRead x (ptrWithOff b (ptrOff b + p.offset)) p.length with
      | .ok (bs, s) => s.netAnswer n ⟨p.psn, 0, bs, 0⟩
      | .error _ => s.netAnswer n ⟨p.psn, 2, [], 0⟩

/-- Packets that the bitmap of R415 covers. -/
def bitmapMax : Nat := 256

/-- RDMA_PACKET_RECEIVE (R411, R413, R415). -/
def execRdmaPacketReceive (p : RdmaPacket) (s : State) : Host.Outcome State Fault Refusal :=
  .next (let n := p.qp
    let q := s.qp n
    let ahead := (p.psn + 2 ^ 24 - q.epsn) % 2 ^ 24
    if !q.valid || q.st != 1 || q.mtu == 3 then s
    else if bitmapMax ≤ ahead && ahead < 2 ^ 23 then s
    else if 2 ^ 23 ≤ ahead || (tabFind q.seen p.psn).isSome then
      if p.verb = .read then s.answerRead n q p else s.netAnswer n ⟨(q.epsn + 2 ^ 24 - 1) % 2 ^ 24, 0, [], 0⟩
    else
      let mark (s : State) : State := (s.setQp n { s.qp n with seen := tabPut (s.qp n).seen p.psn p }).advanceEpsn n bitmapMax
      let ack (s : State) : State := s.netAnswer n ⟨((s.qp n).epsn + 2 ^ 24 - 1) % 2 ^ 24, 0, [], 0⟩
      match p.verb with
      | .read => mark (s.answerRead n q p)
      | .send => ack (mark s)
      | _ =>
        if !s.packetOk q p then
          -- a refused request is answered, writes nothing and completes no message
          (((s.setQp n { q with seen := tabPut q.seen p.psn { p with last := false } }).advanceEpsn n bitmapMax)).netAnswer n ⟨p.psn, 1, [], 0⟩
        else
          match s.intoRegion q p.key p.offset p.bytes with
          | .ok s => ack (mark s)
          | .error _ => s.netAnswer n ⟨p.psn, 2, [], 0⟩)

/-! ### Software's hold on a pair (R412) -/

/-- QP_ENABLE (R412): VALID is set. -/
def execQpEnable (n : Nat) (s : State) : Host.Outcome State Fault Refusal :=
  .next (let q := s.qp n
    if qpCount ≤ n || q.valid then s else s.setQp n { q with valid := true, st := 1, tries := 0, base := 0xFFFFFFFF, since := s.ptime })

/-- QP_RESET (R412): VALID is cleared; requests not acknowledged complete with status 5. -/
def execQpReset (n : Nat) (s : State) : Host.Outcome State Fault Refusal :=
  .next (let q := s.qp n
    if !q.valid then s
    else
      let s := s.flushQp n 0
      s.setQp n { s.qp n with valid := false, seen := [] })

/-! ### Links (R409, R410) -/

/-- FRAME_TO_HOST (R410): a frame that is not RoCEv2 passes to the host cores. -/
def execFrameToHost (port : Nat) (frame : List Byte) (s : State) : Host.Outcome State Fault Refusal :=
  .next (if 8 ≤ port ∨ 9216 < frame.length then s else { s with hostFrames := (port, frame) :: s.hostFrames })

/-- ETHERNET_LINK_TRAINING (R410): a port runs at a rate it supports, or is down. -/
def execEthernetLinkTraining (port rate : Nat) (s : State) : Host.Outcome State Fault Refusal :=
  .next (if 8 ≤ port then s else { s with ethernet := tabSet 0 s.ethernet port (if rate = 1600 ∨ rate = 800 ∨ rate = 400 then rate else 0) })

/-- A host link that the port supports (R409). -/
def linkSupported (l : HostLink) : Bool :=
  (l.gen == 5 || l.gen == 6 || l.gen == 7) && (l.width == 16 || l.width == 8 || l.width == 4) && (l.cxl == 32 || l.cxl == 20 || l.cxl == 0)

/-- HOST_PORT_TRAINING (R409): a port trains to an option it supports; others are not supported. -/
def execHostPortTraining (port : Nat) (link : HostLink) (s : State) : Host.Outcome State Fault Refusal :=
  .next (if 2 ≤ port then s
    else if linkSupported link then { s with hostLinks := tabPut s.hostLinks port link }
    else { s with hostLinks := tabDel s.hostLinks port })

end Sys2Proof.Machine
end

