-- ==== Sys2Proof/Machine/Fabric.lean ====
section
/-! DEFINITION. Sys2Proof/Machine/Fabric.lean: ports and links (R379, R380), routing (R382–R384), and what a packet
delivered to this module does there (R381, R383, R386). -/

namespace Sys2Proof.Machine

/-! ### Ports (R379, R380) -/

/-- Spans, and span routers. -/
def routerCount : Nat := 8
/-- External ports of a router. -/
def portCount : Nat := 9
/-- Cycles of the nominal clock in 1 ms. -/
def linkLimit : Nat := 4000000
/-- Retries of one flit after which a port fails. -/
def retryMax : Nat := 1024
/-- OPC of a marker (R398). -/
def markerOpc : Nat := 0x3E

/-- Change a port. -/
def State.onPort (s : State) (r p : Nat) (f : Port → Port) : State :=
  let x := s.router r
  s.setRouter r (x.setPort p (f (x.port p)))

/-- Training begins: GENCAP takes effect; with no generation allowed the port stays down. -/
def Port.train (q : Port) (now : Nat) : Port :=
  if q.gencap = 0 then { q with cap := 0, st := 0, gen := 0 } else { q with cap := q.gencap, st := 1, gen := 0, since := now }

/-- The port leaves the up state: what its link held is lost. -/
def Port.drop (q : Port) (st : Nat) : Port :=
  { q with st := st, gen := 0, tx := 0, rx := 0, buf := [], tries := 0, used := [], part := [], wait := [] }

/-- Lower-deck channels. -/
def lowerChans : List Nat := [0, 1, 2]

/-- Input channels of a port close in every sweep (R400). -/
def Router.closePort (x : Router) (p : Nat) : Router :=
  { x with sweeps := x.sweeps.map (fun w => { w with closed := (lowerChans.map (fun c => 3 * p + c)).foldl (fun l k => if l.contains k then l else k :: l) w.closed }) }

/-- A port fails. -/
def State.failPort (s : State) (r p : Nat) : State :=
  let s := s.onPort r p (fun q => q.drop 3)
  s.setRouter r ((s.router r).closePort p)

/-- GEN that two ends settle on: the highest generation that the GENCAP of both allows; 0 for none. -/
def commonGen (a b : BitVec 2) : Nat := if (a &&& b).getLsbD 1 then 2 else if (a &&& b).getLsbD 0 then 1 else 0

/-- PORT_TRAINING_COMPLETE (R379, R380): a port in training settles on the highest generation that both ends allow; with none it
does not complete. -/
def execPortTrainingComplete (r p : Nat) (gencap : BitVec 2) (peer pport : Nat) (s : State) : Host.Outcome State Fault Refusal :=
  let q := (s.router r).port p
  .next (if routerCount ≤ r ∨ portCount ≤ p ∨ q.st ≠ 1 ∨ !q.en ∨ commonGen q.cap gencap = 0 ∨ linkLimit ≤ s.time - q.since then s
    else s.onPort r p (fun q => { (q.drop 2) with gen := commonGen q.cap gencap, peer := peer % 256, pport := pport % 16 }))

/-- PORT_TRAINING_TIMEOUT (R380): training that does not complete within 1 ms. -/
def execPortTrainingTimeout (r p : Nat) (s : State) : Host.Outcome State Fault Refusal :=
  let q := (s.router r).port p
  .next (if routerCount ≤ r ∨ portCount ≤ p ∨ q.st ≠ 1 ∨ s.time - q.since < linkLimit then s else s.failPort r p)

/-- PORT_DISABLE (R380): a write of 0 to EN takes the port down at once. -/
def execPortDisable (r p : Nat) (s : State) : Host.Outcome State Fault Refusal :=
  .next (if routerCount ≤ r ∨ portCount ≤ p then s
    else
      let s := s.onPort r p (fun q => { (q.drop 0) with en := false })
      s.setRouter r ((s.router r).closePort p))

/-! ### Sending on a link (R379, R384) -/

/-- Flits of a packet: the header and the payload in 64-byte pieces. -/
def Packet.flitsOf (p : Packet) : List (BitVec 512) :=
  p.header :: (List.range (ceilDiv p.payload.length 64)).map (fun i => BitVec.ofNat 512 (leNat ((p.payload.drop (64 * i)).take 64)))

/-- A flit as it goes on the link, with a CRC that matches its bytes. -/
def linkFlit (e : Nat × Nat × BitVec 512) : LinkFlit := ⟨e.2.1, e.1, true, e.2.2, none, []⟩

/-- Put flits of a channel on the link. -/
def Port.sendFlits (q : Port) (c : Chan) (fs : List (BitVec 512)) : Port :=
  let new := ((List.range fs.length).zip fs).map (fun e => (q.tx + e.1, c, e.2))
  { q with buf := q.buf ++ new, tx := q.tx + fs.length, used := tabSet 0 q.used c (tabGet 0 q.used c + fs.length),
           out := (new.map linkFlit).reverse ++ q.out }

/-- Acknowledge every flit that has been accepted. -/
def Port.acknowledge (q : Port) : Port := { q with out := ⟨7, 0, true, 0, some (q.rx - 1), []⟩ :: q.out }

/-- Flits that leave an input buffer of a port return their credits to the far end (R384). -/
def State.returnCredits (s : State) (r input : Nat) (c : Chan) (n : Nat) : State :=
  if portCount ≤ input ∨ ((s.router r).port input).st ≠ 2 then s
  else s.onPort r input (fun q => { q with out := ⟨7, 0, true, 0, none, List.replicate n c⟩ :: q.out })

/-- Credits of a channel cover so many more flits. -/
def Port.credit (q : Port) (c : Chan) (n : Nat) : Bool := tabGet 0 q.used c + n ≤ inputFlits

/-- Markers that wait for a credit of their channel go out. -/
def Port.sendWaiting (q : Port) : Port :=
  q.wait.foldl (fun (q : Port) m =>
    if q.credit m.1 1 && !q.wait.any (fun n => n.1 == m.1) then q.sendFlits m.1 [m.2]
    else { q with wait := q.wait ++ [m] }) { q with wait := [] }

/-! ### Flits that arrive (R379) -/

/-- Payload bytes of a packet from its flits. -/
def flitBytes (fs : List (BitVec 512)) (n : Nat) : List Byte := (fs.flatMap (fun f => leBytes 64 f.toNat)).take n

/-- The sweep of a packet's job that has closed its input channel (R406); quiesces and upper-deck packets have none. -/
def Router.closedFor (x : Router) (input : Nat) (c : Chan) (job : Nat) : Bool :=
  c < 3 && x.sweeps.any (fun w => w.job != 0 && w.job == job && w.closed.contains (3 * input + c))

/-- A whole packet has arrived on an input channel: a marker, a late packet, or one for the input buffer. Markers and late packets
take no room there, and a marker comes before what is behind it on its channel (R408). -/
def State.packetArrives (s : State) (r p : Nat) (c : Chan) (k : Packet) : State :=
  let x := s.router r
  let free (s : State) : State := s.returnCredits r p c k.flits
  if k.field 34 6 = markerOpc then (free s).push (.markerArrival r p c k.header)
  else if x.closedFor p c k.job then
    let w := x.sweeps.map (fun w => if w.job = k.job then
      { w with late := tabSet [] w.late (inputKey p c) (tabGet [] w.late (inputKey p c) ++ [k]) } else w)
    (free (s.setRouter r { x with sweeps := w })).enqueue [.latePacket r p c]
  else s.setRouter r (x.setInput p c (x.input p c ++ [k]))

/-- FLIT_RECEIVE (R379, R384): acknowledgements and credits count; a flit whose CRC matches and which is the next in
order is accepted, and acknowledged; one accepted before is acknowledged again; any other is sent again by the far end. -/
def execFlitReceive (r p : Nat) (f : LinkFlit) (s : State) : Host.Outcome State Fault Refusal :=
  .next (if routerCount ≤ r ∨ portCount ≤ p ∨ ((s.router r).port p).st ≠ 2 ∨ !f.crcOk then s
    else
      let s := s.onPort r p (fun q =>
        let q := match f.ack with
          | some a => if q.buf.any (fun e => e.1 ≤ a) then { q with buf := q.buf.filter (fun e => a < e.1), tries := 0 } else q
          | none => q
        ({ q with used := f.credits.foldl (fun u c => tabSet 0 u c (tabGet 0 u c - 1)) q.used } : Port).sendWaiting)
      let x := s.router r
      let q := x.port p
      let got := tabGet [] q.part f.chan ++ [f.data]
      if 7 ≤ f.chan then s
      else if f.seq < q.rx then s.onPort r p Port.acknowledge
      else if f.seq ≠ q.rx ∨ inputFlits < bufferedFlits (x.input p f.chan) + got.length then s
      else
        let h := got.headD 0
        let len := fieldOf h 25 9
        let whole := 1 + ceilDiv len 64 ≤ got.length
        let s := s.onPort r p (fun q => ({ q with rx := q.rx + 1, part := tabSet [] q.part f.chan (if whole then [] else got) } : Port).acknowledge)
        if whole then s.packetArrives r p f.chan ⟨h, flitBytes got.tail len⟩ else s)

/-- FLIT_RETRY_TIMEOUT (R379, R380): the oldest flit that is not acknowledged is sent again, 1,024 times at most. -/
def execFlitRetryTimeout (r p : Nat) (s : State) : Host.Outcome State Fault Refusal :=
  let q := (s.router r).port p
  .next (if routerCount ≤ r ∨ portCount ≤ p ∨ q.st ≠ 2 ∨ q.buf.isEmpty then s
    else if retryMax ≤ q.tries then s.failPort r p
    else s.onPort r p (fun q =>
      { q with tries := q.tries + 1, retry := min (q.retry + 1) 0xFFFFFFFF, out := (q.buf.take 1).map linkFlit ++ q.out }))

/-! ### Packets delivered here (R381, R383, R386) -/

/-- What operations a packet of a deck may ask (`Config.opcode`). -/
def deckOps (upper : Bool) : List Nat :=
  if upper then [5, 7, 8, 9, 10, 11, 12, 13, 14, 15, 32, 33, 34, 35] else [0, 1, 2, 3, 4, 5, 6] ++ (List.range 16).map (16 + ·)

/-- What OPC of a delivered packet says (R381); none for a code that no rule gives. -/
def Packet.does (p : Packet) : Option Nat := (deckOps (p.field 16 1 == 1)).find? (fun n => (Config.opcode n).toNat = p.field 34 6)

/-- Source module. -/
def Packet.src (p : Packet) : Nat := p.field 8 8
/-- ADDR -/
def Packet.addr (p : Packet) : Nat := p.field 64 56
/-- TAG -/
def Packet.tagOf (p : Packet) : Nat := p.field 128 32
/-- BMASK -/
def Packet.mask (p : Packet) : ByteMask := p.header.extractLsb' 256 128

/-- An answer to a packet, on its deck's last channel, through the router that it came by (R377). -/
def State.answerPacket (s : State) (r : Nat) (p : Packet) (opc : Nat) (payload : List Byte) : State :=
  let c := if p.field 16 1 = 1 then 5 else 2
  s.inject r c (packetOf s.moduleId.toNat ⟨p.src, c, 63, Config.opcode opc, p.job, p.field 56 6, p.addr, p.tagOf, 0⟩ payload)

/-- A request of another module performed at its address: its answer, or the class of its error response. -/
def State.performRemote (s : State) (p : Packet) (op : Nat) : Except Nat (List Byte × State) :=
  let pa := p.addr
  let line := paLine pa
  let off := pa % 128
  if paModule pa ≠ s.moduleId.toNat ∨ !paPresent pa then .error 11
  else if op = 1 then do
    let d ← s.ctlRead line
    return (maskBytes p.mask d, s)
  else if op = 0 then do
    let s ← s.ctlWrite line (spreadBytes p.mask p.payload) p.mask
    return ([], s)
  else do
    let n := if op = 16 + 1 then p.payload.length / 2 else p.payload.length
    let d ← s.ctlRead line
    let old := lineField d (8 * off) (8 * n)
    let new := atomicNew (op - 16) (8 * n) old (BitVec.ofNat 128 (leNat p.payload))
    let s ← s.ctlWrite line (placeBytes off (leBytes n new)) (byteMask off n)
    return (leBytes n old, s)

/-- Step data as its packet carries them (R389): the count k in TAG, the chain, the first index and N in ADDR. -/
def Packet.stepData (p : Packet) : StepPacket :=
  ⟨p.src, p.job, p.field 64 8, p.tagOf, p.field 90 30, p.field 72 18,
    (List.range (p.payload.length / 4)).map (fun i => BitVec.ofNat 32 (leNat ((p.payload.drop (4 * i)).take 4)))⟩

/-- The step of this module that sent step data, while its results are not formed. -/
def State.stepOf (s : State) (job chain k : Nat) : Option (Nat × Nat × StepOp) :=
  s.allSteps.find? (fun y => y.2.2.job == job && y.2.2.tag == chain && y.2.2.index == k && y.2.2.results.isNone)

/-- An error response, or the dropping of an own packet: the request of that tag and address ends with the class, or the step
that sent the data does (R223, R382, R386). -/
def State.packetFailed (s : State) (p : Packet) (cls : Nat) : State :=
  let lower := (tabFind s.lower p.tagOf).filter (fun r => r.pa == p.addr && r.sent.isSome)
  let upper := (tabFind s.upper p.tagOf).filter (fun e => e.sent * 128 == p.addr)
  if p.field 16 1 = 1 then
    match upper with
    | some e => ({ s with upper := tabPut s.upper p.tagOf { e with answer := some (some cls) } } : State).enqueue [.longLatencyResult e.core e.acc]
    | none => s
  else
    match lower with
    | some _ => s.push (.lowerCompletion p.tagOf (.error cls))
    | none =>
      match s.stepOf p.job (p.field 64 8) p.tagOf with
      | some (c, j, x) => s.failStep c j cls x.buf
      | none => s

/-- The source of a packet that is not delivered receives an error response with the packet's address (R382, R406, R428); an own
answer or abort has none. -/
def State.refusePacket (s : State) (r : Nat) (p : Packet) (cls : Nat) : State :=
  if p.src ≠ s.moduleId.toNat then s.answerPacket r p 5 [BitVec.ofNat 8 cls]
  else if p.does = some 3 ∨ p.does = some 4 ∨ p.does = some 5 ∨ p.does = some 6 ∨ p.does = some 35 then s
  else s.packetFailed p cls

/-! ### Upper-deck packets (R365, R367, R371–R374, R383) -/

/-- The agent that a packet names, the line with its mirror home, and the flag (log 186). -/
def Packet.agent (p : Packet) : Nat := leNat (p.payload.take 2)
/-- The line. -/
def Packet.lineRef (p : Packet) : LineRef := ⟨paLine p.addr, (p.payload.getD 2 0).toNat⟩
/-- The flag. -/
def Packet.flag (p : Packet) : Bool := p.payload.getD 3 0 != 0
/-- The agent for which a forward is made. -/
def Packet.forAgent (p : Packet) : Nat := leNat ((p.payload.drop 4).take 2)
/-- Bytes of the mask. -/
def Packet.lineData (p : Packet) : Line := spreadBytes p.mask (p.payload.drop 4)

/-- The state of an outcome; these operations neither fault nor refuse. -/
def nextOr (s : State) : Host.Outcome State Fault Refusal → State
  | .next t => t
  | _ => s

/-- The state of an agent on another module, as its own packet gives it: the bytes that it writes back. -/
def State.agentSends (s : State) (a : Nat) (p : Packet) : State :=
  let l := (s.homeRef p.lineRef).line
  match s.agentLine a l with
  | some x => s.setAgent a l { x with data := mergeLine x.data p.lineData p.mask }
  | none => s

/-- What a request or forward of the upper deck asks of this module. -/
def State.upperServe (s : State) (p : Packet) (op : Nat) : State :=
  let r := p.lineRef
  let a := p.agent
  nextOr s (match op with
    | 7 => execHomeReadRequest r a p.flag s
    | 8 => execHomeOwnershipRequest r a p.flag p.mask p.lineData s
    | 9 => execHomeMaskRequest r a p.mask p.lineData s
    | 10 => execHomeWriteBack r a (s.agentSends a p)
    | 11 => execSharerEvictNotice r a s
    | 12 => execReadForward r a p.forAgent s
    | 13 => execOwnershipForward r a p.forAgent s
    | 14 => execInvalidate r a s
    | 15 => execConvert r a s
    | 32 => execGather r s
    | _ => execRecall r a s)

/-- A mirror update: bytes of the mirror home's line, or its entry (R363, R374). -/
def State.mirrorServe (s : State) (p : Packet) : State :=
  let primary := (p.src * 2 ^ 48 + (paLocal p.addr - 0x800000000)) / 128
  let s := s.rawWriteLine (s.forward primary) (spreadBytes p.mask p.payload) p.mask
  nextOr s (execMirrorUpdate ⟨primary, s.moduleId.toNat⟩ s)

/-- The line as its holder, or its home, has it once a request has been served. -/
def State.servedLine (s : State) (p : Packet) : List Byte :=
  let l := (s.homeRef p.lineRef).line
  match s.agentLine p.agent l with
  | some x => lineBytes x.data 0 128
  | none => lineBytes (s.rawLine (s.forward l)) 0 128

/-- A response: the answer to an outstanding request, with the line's bytes as its owner or its home has them. -/
def State.upperAnswer (s : State) (p : Packet) : State :=
  match tabFind s.upper p.tagOf with
  | none => s
  | some e =>
    let d := s.dirOf e.line
    let s := if p.payload.length ≠ 128 then s
      else
        match (if d.state = .x ∨ d.state = .o then s.agentLine d.owner e.line else none) with
        | some x => if d.owner / 8 = s.moduleId.toNat then s else s.setAgent d.owner e.line { x with data := lineOf p.payload }
        | none => s.rawWriteLine (s.forward e.sent) (lineOf p.payload) (BitVec.allOnes 128)
    ({ s with upper := tabPut s.upper p.tagOf { e with answer := some none } } : State).enqueue [.longLatencyResult e.core e.acc]

/-- A packet is delivered to this module. Response, forward and completion traffic is always accepted (R384). -/
def State.deliverPacket (s : State) (r : Nat) (p : Packet) : State :=
  match p.field 16 1 == 1, p.does with
  | _, none => { s with delivered := p :: s.delivered }
  | false, some op =>
    if op = 2 then s.enqueue [.stepDataArrival p.stepData]
    else if op = 3 ∨ op = 4 then s.push (.lowerCompletion p.tagOf (.performed p.payload))
    else if op = 5 then s.packetFailed p (p.payload.headD 0).toNat
    else if op = 6 then s.enqueue [.stepAbortReceive p.src p.job (p.field 64 8) p.tagOf]
    else
      match s.performRemote p op with
      | .error c => s.answerPacket r p 5 [BitVec.ofNat 8 c]
      | .ok (bs, s) => s.answerPacket r p (if op = 1 then 3 else 4) bs
  | true, some op =>
    if op = 5 then s.packetFailed p (p.payload.headD 0).toNat
    else if op = 35 then s.upperAnswer p
    else if op = 34 then (s.mirrorServe p).answerPacket r p 35 []
    else
      let t := s.upperServe p op
      t.answerPacket r p 35 (if op = 7 ∨ op = 8 ∨ op = 12 ∨ op = 13 then t.servedLine p else [])

/-! ### Routing (R382) -/

/-- A router forwards no packet of a job that it sweeps or has swept, until the restore (R398, R405). One that a marker
has started on a module with no command for the job sweeps nothing, and goes on forwarding. -/
def Router.stops (x : Router) (c : Chan) (job : Nat) : Bool :=
  c < 3 && x.sweeps.any (fun w => w.job != 0 && !w.bare && w.job == job)

/-- The first packet of an input channel that the router may forward: packets of swept jobs stay. -/
def Router.nextPacket (x : Router) (input : Nat) (c : Chan) : Option Packet := (x.input input c).find? (fun p => !x.stops c p.job)

/-- The first packet of an input channel that it may forward leaves the buffer. -/
def Router.takePacket (x : Router) (input : Nat) (c : Chan) : Router :=
  let ps := x.input input c
  x.setInput input c (ps.takeWhile (fun p => x.stops c p.job) ++ (ps.dropWhile (fun p => x.stops c p.job)).tail)

/-- HOPS less one. -/
def Packet.hop (p : Packet) : Packet :=
  { p with header := BitVec.ofNat 512 (p.header.toNat - p.field 19 6 * 2 ^ 19 + (p.field 19 6 - 1) * 2 ^ 19) }

/-- PACKET_ROUTE (R377, R378, R382, R384): the first packet of an input channel that may move is delivered, sent on
against credits of its channel, or dropped with an error response to its source. -/
def execPacketRoute (r input : Nat) (c : Chan) (s : State) : Host.Outcome State Fault Refusal :=
  let x := s.router r
  .next (if routerCount ≤ r ∨ ownInput < input ∨ 7 ≤ c then s
    else
      match x.nextPacket input c with
      | none => s
      | some p0 =>
        let p := p0.hop
        let route := tabGet 0 x.routes (p.field 0 8)
        let taken := (s.setRouter r (x.takePacket input c)).returnCredits r input c p.flits
        if p.field 19 6 = 0 ∨ (9 ≤ route ∧ route < 15) then taken.refusePacket r p 14
        else if route = 15 then taken.deliverPacket r p
        else
          let q := x.port route
          if q.st = 2 && q.credit c p.flits && !q.wait.any (fun m => m.1 == c) then
            taken.onPort r route (fun q => q.sendFlits c p.flitsOf)
          else s)

end Sys2Proof.Machine
end

