-- ==== Sys2Proof/Machine/Scheduler.lean ====
section
/-! DEFINITION. Sys2Proof/Machine/Scheduler.lean: launch records, their checks and dispatch (R325–R330, R336), placement
and admission of teams (R331–R334), pinning (R261, R262), and completion (R335). -/

namespace Sys2Proof.Machine

/-! ### The scheduler's accesses -/

/-- The scheduler translates at X-die 0, as core 0 does. -/
def schedCore : Nat := 0

/-- Read control-space bytes as the scheduler's system-scope acquire does, with the checks of R42 and the protection key. -/
def State.schedRead (s : State) (x : Nat) (p : Word64) (n : Nat) (kind : Kind) : Except PortFault (List Byte × State) :=
  match s.checkAddress schedCore x 0 p false n 1 .control kind false with
  | (some c, _) => .error (.cls c 0)
  | (none, s) =>
    (linePieces (ptrOff p) n).foldlM (fun (acc : List Byte × State) e =>
      let q := ptrWithOff p (ptrOff p + e.1)
      match acc.2.port schedCore x q kind with
      | .error f => .error f
      | .ok (t, s) =>
        let r := s.homeRef t.ref
        match (s.promoteLine r.line).agentRead (s.coreAgent schedCore) r (byteMask (ptrOff q % 128) e.2) (s.ctx x).cos.toNat with
        | .error c => .error (portOf c)
        | .ok (d, s) => .ok (acc.1 ++ lineBytes d (ptrOff q % 128) e.2, s)) ([], s)

/-- Add 1 to a u64 by a strong system-scope atomic (R335). -/
def State.schedCount (s : State) (x : Nat) (p : Word64) : Except PortFault State := do
  let (bs, s) ← s.schedRead x p 8 .atomic
  s.sysWrite schedCore x p (leBytes 8 (leNat bs + 1))

/-! ### The launch record (R327, R328) -/

/-- Roles that a record's fields give. -/
def rolesOf (r : Nat) : List Role :=
  ((List.range 4).map (fun j => (r >>> (192 + 16 * j)) % 2 ^ 16)).filterMap (fun v =>
    if v % 64 = 0 then none else some ⟨v % 64, 8 * ((v >>> 8) % 32)⟩)

/-- A field of a record. -/
def recField (r lo n : Nat) : Nat := (r >>> lo) % 2 ^ n

/-- A field of a record as a word. -/
def recWord (r lo : Nat) : Word64 := BitVec.ofNat 64 (recField r lo 64)

/-- The launch of a record. -/
def Launch.ofRecord (queue : Nat) (q : Queue) (seq : Nat) (slot : Word64) (r : Nat) : Launch :=
  { queue := queue, qptr := q.qptr, logn := q.logn.toNat, seq := seq, ctx := q.ctx.toNat, slot := slot
    entry := recWord r 0, trapb := recWord r 64, grid := recWord r 128, roles := rolesOf r
    scrb := recField r 256 20, acmin := recField r 280 6, acmax := recField r 288 6, weight := recField r 296 4
    prio := recField r 304 2, mcheck := recField r 306 2, gbar := recField r 312 1 = 1, preempt := recField r 313 1 = 1
    demote := recField r 314 1 = 1, zt := recField r 315 1 = 1, bintimer := recField r 320 16
    deps := (List.range (min (recField r 336 3) 4)).map (fun k => (recWord r (448 + 128 * k), recWord r (512 + 128 * k)))
    sigptr := recWord r 384, state := .waitingDeps, since := 0, nextTeam := 0, gwait := false, live := 0, cores := [] }

/-- X, Y and Z extents. -/
def Launch.extents (l : Launch) : Nat × Nat × Nat := (fieldOf l.grid 0 32 + 1, fieldOf l.grid 32 16 + 1, fieldOf l.grid 48 16 + 1)
/-- Teams of the grid. -/
def Launch.teams (l : Launch) : Nat := l.extents.1 * l.extents.2.1 * l.extents.2.2
/-- Groups of a team. -/
def Launch.groups (l : Launch) : Nat := (l.roles.map Role.ng).foldl (· + ·) 0
/-- Scratchpad lines of a team (R261). -/
def Launch.lines (l : Launch) : Nat := ceilDiv l.scrb 128
/-- Role and budget of each group, in order. -/
def Launch.groupList (l : Launch) : List (Nat × Nat) :=
  ((List.range l.roles.length).zip l.roles).flatMap (fun e => List.replicate e.2.ng (e.1, e.2.budget))

/-- A RES0 field is nonzero (check 1). -/
def recordReserved (r : Nat) : Bool :=
  let outer := [(276, 4), (286, 2), (294, 2), (300, 4), (308, 4), (316, 4), (339, 45), (960, 64)]
  let roles := (List.range 4).flatMap (fun j => [(198 + 16 * j, 2), (205 + 16 * j, 3)])
  (outer ++ roles).any (fun f => recField r f.1 f.2 != 0)

/-- A pointer to a counter: 8-byte aligned, control space. -/
def counterPtr (p : Word64) : Bool := ptrTag p == 0 && fieldOf p 0 3 == 0

/-- NDEP, DEPPTR or SIGPTR is wrong (check 2). -/
def recordCounters (r : Nat) (l : Launch) : Bool :=
  4 < recField r 336 3 || l.deps.any (fun d => !counterPtr d.1) || (l.sigptr != 0 && !counterPtr l.sigptr)

/-- A pointer names a block header (R66). -/
def State.isEntry (s : State) (x : Nat) (p : Word64) : Bool × State :=
  if !counterPtr p then (false, s)
  else
    match s.schedRead x p 8 .read with
    | .error _ => (false, s)
    | .ok (bs, s) => (isHeader (BitVec.ofNat 64 (leNat bs)), s)

/-- Roles are wrong (check 4). -/
def recordRoles (r : Nat) (l : Launch) : Bool :=
  let f (j : Nat) : Nat := recField r (192 + 16 * j) 16
  f 0 % 64 = 0 || [0, 1, 2, 3].any (fun j => f j % 64 = 0 && f j != 0) ||
    [1, 2, 3].any (fun j => f j % 64 != 0 && f (j - 1) % 64 = 0) ||
    l.roles.any (fun o => o.budget = 0 || 192 < o.budget) || 32 < l.groups

/-- Scalars are wrong (check 6). -/
def Launch.scalars (l : Launch) : Bool :=
  scratchSize < l.scrb || l.acmax < l.acmin || tileCount < l.acmax || l.weight = 0 || l.mcheck = 3 || l.bintimer < 64

/-! ### Room on a core (R235, R261, R264, R332) -/

/-- Issue partitions of a core. -/
def partCount : Nat := 4
/-- Vector registers of a partition (R15). -/
def partRegs : Nat := 1024
/-- Scratchpad address lines of a core. -/
def scratchLines : Nat := 7680

/-- Partition with the most free registers, the lowest on a tie. -/
def bestPart (free : List Nat) : Nat :=
  (List.range partCount).foldl (fun b p => if free.getD b 0 < free.getD p 0 then p else b) 0

/-- Place groups of these budgets one by one: their partitions, and what stays free. -/
def placeGroups : List Nat → List Nat → Option (List Nat × List Nat)
  | free, [] => some ([], free)
  | free, b :: bs =>
    let p := bestPart free
    if free.getD p 0 < b then none
    else (placeGroups (free.set p (free.getD p 0 - b)) bs).map (fun e => (p :: e.1, e.2))

/-- Registers free in each partition. -/
def Core.freeRegs (k : Core) : List Nat :=
  (List.range partCount).map (fun p => partRegs - ((k.groups.filter (fun g => g.2.part = p)).map (fun g => g.2.budget)).foldl (· + ·) 0)

/-- Base of the lowest free run of n address lines. -/
def Core.freeRun (k : Core) (n : Nat) : Option Nat :=
  let used := (k.teams.filter (fun t => t.2.bytes != 0)).map (fun t => (t.2.base, t.2.bytes / 128))
  let fits (b : Nat) : Bool := b + n ≤ scratchLines && used.all (fun u => b + n ≤ u.1 || u.1 + u.2 ≤ b)
  if n = 0 then some 0
  else ((0 :: used.map (fun u => u.1 + u.2)).filter fits).foldl (fun m b => match m with
    | none => some b
    | some a => some (min a b)) none

/-- Lines that teams have still to pin. -/
def Core.toPin (k : Core) : Nat := (k.teams.map (fun t => t.2.toPin)).foldl (· + ·) 0

/-- Free group slots, ascending. -/
def Core.freeSlots (k : Core) : List Nat := (List.range 64).filter (fun i => (tabFind k.groups i).isNone)

/-- A core offers everything that a team needs (R333): its groups' partitions and its base line. -/
def Core.offers (k : Core) (l : Launch) : Option (List Nat × Nat) :=
  if k.freeSlots.length < l.groups ∨ (tabFree k.teams 64).isNone ∨ k.freeTiles.length < l.acmin ∨
      (l.lines ≠ 0 ∧ scratchLines < k.pinTotal + k.toPin + l.lines) then none
  else
    match placeGroups k.freeRegs (l.groupList.map Prod.snd), k.freeRun l.lines with
    | some (ps, _), some b => some (ps, b)
    | _, _ => none

/-- Per-core capacity Tc (R332). -/
def Launch.capacity (l : Launch) : Nat :=
  let fits (n : Nat) : Bool :=
    n * l.groups ≤ 64 && n * (128 * l.lines) ≤ scratchSize && n * l.acmin ≤ tileCount &&
      (placeGroups (List.replicate partCount partRegs) (List.replicate n (l.groupList.map Prod.snd)).flatten).isSome
  ((List.range 65).filter fits).foldl max 0

/-! ### Checks and refusal (R329) -/

/-- A launch fails a check of R329. -/
def State.launchRefused (s : State) (l : Launch) (r : Nat) : Bool × State :=
  if recordReserved r || recordCounters r l then (true, s)
  else if l.zt then (false, s)
  else
    let (entry, s) := s.isEntry l.ctx l.entry
    let (trap, s) := if l.trapb = 0 then (true, s) else s.isEntry l.ctx l.trapb
    (!entry || !trap || recordRoles r l || 2 ^ 32 < l.teams || l.scalars || l.capacity = 0 ||
      (l.gbar && l.capacity * 32 * popCount 16 (s.ctx l.ctx).clmask.toNat < l.teams), s)

/-- A record of class launch refusal in the context's log. -/
def State.logLaunch (s : State) (x cause : Nat) (addr : Word64) : State :=
  (s.logFault x ⟨16, 0, 0, cause, false, 0, 0, schedCore, addr, 0, 0, 0⟩).1

/-- Slots that HEAD passes from a sequence number on. -/
def headPast (done : List Nat) : Nat → Nat → Nat
  | 0, h => h
  | n + 1, h => if done.contains h then headPast done n (h + 1) else h

/-- A slot is completed or refused: HEAD passes it in order (R335). -/
def State.passSlot (s : State) (n seq x : Nat) (qptr : Word64) : State :=
  let q := s.queue n
  let done := seq :: q.done
  let head := headPast done (done.length) q.head
  let s := s.setQueue n { q with head := head, done := done.filter (fun d => head ≤ d) }
  let s := if head = q.head then s
    else
      match s.sysWrite schedCore x qptr (leBytes 8 head) with
      | .ok s => s
      | .error _ => s
  s.enqueue [.launchDispatch n]

/-! ### Dispatch (R326, R330, R336) -/

/-- SCHEDULER_TAIL_REREAD (R326): every slot below the TAIL read is then visible. -/
def execSchedulerTailReread (n : Nat) (s : State) : Host.Outcome State Fault Refusal :=
  let q := s.queue n
  .next (if 64 ≤ n ∨ !q.usable then s
    else
      match s.queueWord q.ctx.toNat q.qptr 128 with
      | .error _ => s
      | .ok (t, s) => (s.setQueue n { s.queue n with tail := t }).enqueue [.launchDispatch n])

/-- Every counter of a launch reads at least its target. -/
def State.depsMet (s : State) (l : Launch) : Bool × State :=
  l.deps.foldl (fun (acc : Bool × State) d =>
    if !acc.1 then acc
    else
      match acc.2.schedRead l.ctx d.1 8 .read with
      | .error _ => (false, acc.2)
      | .ok (bs, s) => (d.2.toNat ≤ leNat bs, s)) (true, s)

/-- A launch dispatches once its counters have reached their targets; with ZT it completes then. -/
def State.dispatch (s : State) (id : Nat) (l : Launch) : State :=
  match s.depsMet l with
  | (false, s) => s
  | (true, s) =>
    if l.zt then
      { s with launches := tabPut s.launches id { l with state := .admitted, since := s.time } }.enqueue [.launchComplete id]
    else
      { s with launches := tabPut s.launches id { l with state := .dispatching, since := s.time } }

/-- A queue's context admits dispatch. -/
def State.queueLive (s : State) (q : Queue) : Bool := q.usable && (s.ctx q.ctx.toNat).state == .resident

/-- Check the next slot of a queue. -/
def State.checkSlot (s : State) (n : Nat) : State :=
  let q := s.queue n
  let slot := slotPtr q.qptr q.logn.toNat q.next
  let x := q.ctx.toNat
  let s := s.setQueue n { q with next := q.next + 1 }
  match s.schedRead x slot 256 .read with
  | .error _ => (s.logLaunch x 1 slot).passSlot n q.next x q.qptr
  | .ok (bs, s) =>
    let r := leNat bs
    let l := Launch.ofRecord n q q.next slot r
    match s.launchRefused l r with
    | (true, s) => (s.logLaunch x 0 slot).passSlot n q.next x q.qptr
    | (false, s) =>
      let id := s.nextLaunch
      { s with launches := tabPut s.launches id l, nextLaunch := id + 1 }.dispatch id l

/-- LAUNCH_DISPATCH (R329, R330): the next launch of a queue is checked once every team of the earlier one has been
admitted, and dispatches once its dependence counters have reached their targets. -/
def execLaunchDispatch (n : Nat) (s : State) : Host.Outcome State Fault Refusal :=
  let q := s.queue n
  .next (if 64 ≤ n ∨ !s.queueLive q then s
    else
      match s.launches.find? (fun e => e.2.queue = n ∧ e.2.state ≠ .admitted) with
      | some (id, l) => if l.state = .waitingDeps then s.dispatch id l else s
      | none => if q.next < q.tail then s.checkSlot n else s)

/-! ### Placement and admission (R331–R334) -/

/-- The group of a role at its admission (R34, R53). -/
def newGroup (x launch team index role part budget age : Nat) (entry slot : Word64) : Group :=
  { ctx := x, launch := launch, team := team, index := index, role := role, part := part, budget := budget, age := age
    v := [], s := tabSet 0 [] 0 slot, p := [], fe := [], due := []
    recs := [(0, { PathRec.free with state := .running, lanes := BitVec.allOnes 32, place := Place.entry entry })]
    trapWaits := [], splits := [], gens := seedAll 0, faultaddr := 0, faultcode := 0, mstat := 0, seed := 0, owes := false, wait := 0, ended := false }

/-- Scratchpad bytes of a range read zero and hold no barrier object. -/
def Core.clearScratch (k : Core) (base bytes : Nat) : Core :=
  { k with
    scratch := k.scratch.filter (fun e => e.1 < base * 128 || base * 128 + bytes ≤ e.1)
    marks := k.marks.filter (fun e => e.1 * 16 < base * 128 || base * 128 + bytes ≤ e.1 * 16) }

/-- Admit a team on a core that offers what it needs: slots, partitions, scratchpad base, tiles; the admission is a
device-scope acquire on that core (R334). -/
def State.admitTeam (s : State) (core id : Nat) (l : Launch) (parts : List Nat) (base : Nat) : State :=
  let k := s.core core
  let t := (tabFree k.teams 64).getD 0
  let bytes := 128 * l.lines
  let team : Team :=
    { ctx := l.ctx, launch := id, pos := l.nextTeam, base := base, bytes := bytes, tiles := [], acmin := l.acmin, acmax := l.acmax
      queues := [], cvs := [], pins := [], toPin := l.lines, admitted := s.time, waiting := l.lines != 0 }
  let k := ({ k with teams := tabPut k.teams t team }.clearScratch base bytes).grantTiles t l.acmin
  let items := (k.freeSlots.zip parts).zip ((List.range l.groups).zip l.groupList)
  let groups := items.foldl (fun g e =>
    tabPut g e.1.1 (newGroup l.ctx id t e.2.1 e.2.2.1 e.1.2 e.2.2.2 s.time l.entry l.slot)) k.groups
  let s := (s.setCore core { k with groups := groups }).invalidateL1 core l.ctx
  let l := { l with
    nextTeam := l.nextTeam + 1
    live := l.live + 1
    cores := if l.cores.contains core then l.cores else l.cores ++ [core]
    state := if l.nextTeam + 1 = l.teams then .admitted else .dispatching }
  { s with launches := tabPut s.launches id l, placeCursor := (core + 1) % 512 }

/-- Place the next team of a launch: the first core at or after the cursor, in a cluster of a mask, that offers what it
needs (R333). -/
def State.placeTeam (s : State) (id : Nat) (clusters : BitVec 16) : Option State :=
  match tabFind s.launches id with
  | none => none
  | some l =>
    let order := (List.range 512).map (fun i => (s.placeCursor + i) % 512)
    match order.find? (fun c => clusters.getLsbD (c / 32) && ((s.core c).offers l).isSome) with
    | none => none
    | some c =>
      match (s.core c).offers l with
      | none => none
      | some (ps, b) => some (s.admitTeam c id l ps b)

/-- Place n teams, all or none. -/
def State.placeTeams : Nat → State → Nat → BitVec 16 → Option State
  | 0, s, _, _ => some s
  | n + 1, s, id, m =>
    match s.placeTeam id m with
    | none => none
    | some s => State.placeTeams n s id m

/-- `a` is served before `b` (R331). -/
def Launch.before (a b : Launch) : Bool :=
  if a.prio ≠ b.prio then b.prio < a.prio else if a.since ≠ b.since then a.since < b.since else a.queue < b.queue

/-- Dispatching launches that may be served, in order; their queue may have been disabled since (R325). -/
def State.servedLaunches (s : State) : List (Nat × Launch) :=
  let ls := s.launches.filter (fun e =>
    e.2.state == .dispatching && (s.ctx e.2.ctx).state == .resident && !(s.ctx e.2.ctx).preq)
  ls.foldl (fun acc e => acc.takeWhile (fun y => y.2.before e.2) ++ [e] ++ acc.dropWhile (fun y => y.2.before e.2)) []

/-- Clusters that waiting GBAR launches keep from a launch (R331). -/
def State.keptClusters (s : State) (order : List (Nat × Launch)) (i : Nat) (l : Launch) : BitVec 16 :=
  ((List.range order.length).zip order).foldl (fun m e =>
    match tabFind s.launches e.2.1 with
    | some w => if e.1 != i && w.gwait && l.prio ≤ w.prio && !(l.gbar && i < e.1) then m ||| (s.ctx w.ctx).clmask else m
    | none => m) 0

/-- One placement decision: the first launch in the order that can be placed. -/
def State.admitOne (s : State) (order : List (Nat × Launch)) : List (Nat × Nat × Launch) → State
  | [] => s
  | (i, id, l) :: rest =>
    let m := (s.ctx l.ctx).clmask &&& ~~~(s.keptClusters order i l)
    if l.gbar then
      match State.placeTeams (l.teams - l.nextTeam) s id m with
      | some s => s
      | none => State.admitOne { s with launches := tabPut s.launches id { l with gwait := true } } order rest
    else
      match s.placeTeam id m with
      | some s => s
      | none => s.admitOne order rest

/-- TEAM_ADMIT (R331–R334): one placement decision, due at most once a core cycle. -/
def execTeamAdmit (s : State) : Host.Outcome State Fault Refusal :=
  let order := s.servedLaunches
  .next (s.admitOne order ((List.range order.length).zip order))

/-! ### Pinning (R261, R262) -/

/-- The team that a core's allocator serves: the first admitted of those with lines to pin. -/
def Core.pinningTeam (k : Core) : Option (Nat × Team) :=
  (k.teams.filter (fun t => t.2.toPin != 0)).foldl (fun m t => match m with
    | none => some t
    | some u => if t.2.admitted < u.2.admitted then some t else some u) none

/-- Fewer pinnable ways are free than a team has lines to pin: pinning pauses (R262). -/
def Core.pinPaused (k : Core) (t : Team) : Bool := scratchLines < k.pinTotal + t.toPin

/-- SCRATCH_PIN (R262): the allocator pins one line, due at most once a core cycle; after the last, the team's groups are
admitted. -/
def execScratchPin (core : Nat) (s : State) : Host.Outcome State Fault Refusal :=
  let k := s.core core
  .next (match k.pinningTeam, ((List.range l1Sets).map (fun i => (k.pinCursor + i) % l1Sets)).find? (fun i => k.pinned i < pinMax) with
    | some (j, t), some set =>
      if k.pinPaused t then s else
      let (way, s) := s.pinWay core set false
      let last := t.toPin = 1
      s.onCore core (fun k => { k with
        pinCursor := (set + 1) % l1Sets
        teams := tabPut k.teams j { t with toPin := t.toPin - 1, pins := t.pins ++ [way], waiting := !last }
        groups := if last then k.groups.map (fun g => if g.2.team = j then (g.1, { g.2 with age := s.time }) else g) else k.groups })
    | _, _ => s)

/-! ### Completion (R335) -/

/-- An engine operation or write of a launch is outstanding on a core. -/
def Core.launchBusy (k : Core) (id : Nat) : Bool :=
  k.copies.any (fun c => c.2.launch == id) || k.steps.any (fun x => x.2.launch == id) || k.nears.any (fun x => x.2.launch == id) ||
    ((k.matrix.running.map (fun m => m.launch == id)).getD false) || k.groups.any (fun g => g.2.launch == id)

/-- Everything that a launch's groups started is complete. -/
def State.launchQuiet (s : State) (id : Nat) : Bool :=
  s.cores.all (fun c => !c.2.launchBusy id) && s.qps.all (fun q => q.2.pending.all (fun r => r.launch != id))

/-- LAUNCH_COMPLETE (R335, R336): the release at device scope, the signal, and HEAD. -/
def execLaunchComplete (id : Nat) (s : State) : Host.Outcome State Fault Refusal :=
  .next (match tabFind s.launches id with
    | none => s
    | some l =>
      if l.state ≠ .admitted ∨ l.live ≠ 0 ∨ !s.launchQuiet id ∨ (s.ctx l.ctx).state = .ending ∨ (s.ctx l.ctx).state = .free then s
      else
        let s := l.cores.foldl (fun s c => s.releaseCore c l.ctx) s
        let s := if l.sigptr = 0 then s
          else
            match s.schedCount l.ctx l.sigptr with
            | .ok s => s
            | .error _ => s.logLaunch l.ctx 2 l.sigptr
        ({ s with launches := tabDel s.launches id } : State).passSlot l.queue l.seq l.ctx l.qptr)

end Sys2Proof.Machine
end

