-- ==== Sys2Proof/Machine/SaveArea.lean ====
section
/-! DEFINITION. Sys2Proof/Machine/SaveArea.lean: the save area of a context in tier-2 (R340–R342): its header, its core directory
and its core sections as bytes. A section's bytes follow the part of a core that they describe, which stands on a core of number
512 × (context + 1) + logical core number while the context is away. -/

namespace Sys2Proof.Machine

/-! ### What is away -/

/-- Number of the core that holds a context's part while it is away. -/
def awayCore (x logical : Nat) : Nat := 512 * (x + 1) + logical

/-- Cores that hold a context's part while it is away. -/
def State.awayCores (s : State) (x : Nat) : List Nat := (s.cores.filter (fun c => c.1 / 512 = x + 1)).map Prod.fst

/-- Arrivals of a context outstanding (R339). -/
inductive Arrival where
  /-- A load or atomic. -/
  | access (core id : Nat)
  /-- An issued line operation of a copy. -/
  | line (core slot : Nat)
  /-- A collective step. -/
  | step (core slot : Nat)
  /-- A near-memory operation. -/
  | near (core slot : Nat)
  /-- A work request. -/
  | net (qp seq : Nat)
  deriving DecidableEq, Repr

/-- The outstanding arrivals of a context. -/
def State.arrivals (s : State) (x : Nat) : List Arrival :=
  s.cores.flatMap (fun c =>
    (c.2.accs.filter (fun a => a.2.ctx == x)).map (fun a => Arrival.access c.1 a.1) ++
    (c.2.copies.filter (fun a => a.2.ctx == x)).flatMap (fun a => a.2.flying.map (fun _ => Arrival.line c.1 a.1)) ++
    (c.2.steps.filter (fun a => a.2.ctx == x)).map (fun a => Arrival.step c.1 a.1) ++
    (c.2.nears.filter (fun a => a.2.ctx == x)).map (fun a => Arrival.near c.1 a.1)) ++
  s.qps.flatMap (fun q => (q.2.pending.filter (fun r => r.ctx == x)).map (fun r => Arrival.net q.1 r.seq))

/-! ### Tier-2 -/

/-- The bytes of a piece of a line are stored at its memory controller, as the module stores them on its own behalf; those that
stand there already are not stored again, but in a failed line. -/
def State.tierLine (s : State) (pa : Nat) (bs : List Byte) : State :=
  let l := s.forward (paLine pa)
  let off := pa % 128
  let old := tabRun 0 s.mem (l * 128 + off) bs.length
  let m := if s.failed.contains l then byteMask off bs.length
    else BitVec.ofNat 128 ((((List.range bs.length).zip (old.zip bs)).map (fun e => if e.2.1 = e.2.2 then 0 else 2 ^ (off + e.1))).foldl (· + ·) 0)
  if m = 0 then s
  else
    match s.ctlWrite (paLine pa) (placeBytes off bs) m with
    | .ok s => s
    | .error _ => s

/-- Write tier-2 bytes at a tensor pointer, as the module does on its own behalf, where a region holds them. -/
def State.tierWrite (s : State) (x : Nat) (p : Word64) (within : State → Nat → Bool) (bs : List Byte) : State :=
  ((linePieces (ptrOff p) bs.length).foldl (fun (acc : State × List Byte) e =>
    (match acc.1.sysPort schedCore x (ptrWithOff p (ptrOff p + e.1)) with
      | .error _ => acc.1
      | .ok (t, s) => if within s t.pa then s.tierLine t.pa (acc.2.take e.2) else s,
      acc.2.drop e.2)) (s, bs)).1

/-- First local address above the homes' share of LPDDR6 (R22): the context save areas start there. -/
def saveBase : Nat := 0x10000000000 + 64 * 2 ^ 30

/-- An address lies in the module's region of context save areas (R22). -/
def State.inSave (s : State) (pa : Nat) : Bool :=
  paModule pa == s.moduleId.toNat && saveBase ≤ paLocal pa && paLocal pa < saveBase + tabGet 0 s.carves 0

/-! ### Items of a core section (R342) -/

/-- Bytes made up with zeros, or cut, to a length. -/
def padTo (n : Nat) (bs : List Byte) : List Byte := (bs ++ List.replicate (n - bs.length) 0).take n

/-- A value of fields: offset and value of each. -/
def packedNat (fs : List (Nat × Nat)) : Nat := (fs.map (fun f => f.2 <<< f.1)).foldl (· + ·) 0

/-- A bit as a field. -/
def bitField (b : Bool) : Nat := if b then 1 else 0

/-- Words of 8 bytes. -/
def wordBytes (ws : List Word64) : List Byte := ws.flatMap (fun w => leBytes 8 w.toNat)

/-- The core header. -/
def Core.headerImage (k : Core) (x logical : Nat) : List Byte :=
  padTo 512 (leBytes 8 logical ++ leBytes 8 k.teams.length ++ leBytes 8 k.groups.length ++ leBytes 64 (tabGet 0 k.fresh x).toNat ++
    leBytes 64 (tabGet 0 k.carry x).toNat ++ leBytes 8 (packedNat (k.groups.map (fun g => (g.1, bitField g.2.owes)))))

/-- The descriptor of a queue register (R184). -/
def QueueReg.image (q : QueueReg) : List Byte :=
  leBytes 16 (packedNat ([(0, q.base), (20, q.logn), (24, q.head), (32, q.count), (44, q.prod.toNat), (63, bitField q.valid)] ++
    [0, 1, 2, 3].map (fun j => (64 + 16 * j, tabGet 0 q.allow j))))

/-- An instruction word. -/
def wordImage (i : Instr) : List Byte := leBytes 8 ((encode i).getD 0).toNat

/-- A convergence register: its count, what has signed, and its first completed round with the instruction word and source values
that are fixed. -/
def CvReg.image (c : CvReg) : List Byte :=
  let fixed := (c.rounds.head?.map Round.sig).orElse (fun _ => c.sigs.head?)
  padTo 96 (leBytes 2 c.count ++ leBytes 2 (c.nextCount.getD c.count) ++ leBytes 2 c.signed ++ leBytes 2 c.rounds.length ++
    ((fixed.map (fun g => wordImage g.instr ++ leBytes 8 g.lanes.toNat ++ wordBytes g.vals)).getD []))

/-- A team record: the index of its launch entry, and what the rule lists after it. -/
def Team.image (t : Team) (slot launch : Nat) : List Byte :=
  padTo 2048 (leBytes 8 launch ++ leBytes 8 t.pos ++ leBytes 8 slot ++ leBytes 8 t.base ++ leBytes 8 t.bytes ++
    leBytes 8 t.tiles.length ++ padTo 32 (t.tiles.flatMap (leBytes 1)) ++ leBytes 8 t.acmin ++
    (tabRun QueueReg.blank t.queues 0 16).flatMap QueueReg.image ++ (tabRun CvReg.blank t.cvs 0 16).flatMap CvReg.image)

/-- A loop frame. -/
def Frame.image (f : Frame) : List Byte :=
  padTo 24 (leBytes 8 f.start.toNat ++ leBytes 8 f.exit.toNat ++ leBytes 4 f.count.toNat ++ leBytes 1 f.depth.toNat)

/-- A word with its block, call depth, frames and reconvergence stack. -/
def Place.image (p : Place) : List Byte :=
  leBytes 8 p.word.toNat ++ leBytes 8 p.block.toNat ++ leBytes 4 p.depth.toNat ++ leBytes 2 p.frames.length ++ leBytes 2 p.stack.length ++
    padTo 96 (p.frames.flatMap Frame.image) ++ padTo 32 (wordBytes p.stack)

/-- Code of a record's state. -/
def RecState.code : RecState → Nat
  | .free => 0
  | .running => 1
  | .waiting => 2
  | .parked => 3

/-- A path record: its state and lanes, its place, its trap-return record and its pending matrix-check deliveries. -/
def PathRec.image (q : PathRec) : List Byte :=
  padTo 390 (leBytes 1 q.state.code ++ leBytes 1 (bitField q.trap.isSome) ++ leBytes 2 q.matFaults.length ++ leBytes 4 q.lanes.toNat ++
    q.place.image ++ (q.trap.getD Place.blank).image ++
    q.matFaults.flatMap (fun f => leBytes 8 f.addr.toNat ++ leBytes 8 f.log.toNat ++ leBytes 4 f.lanes.toNat))

/-- The park entry of a path record (R252). -/
def PathRec.parkImage (q : PathRec) (slot prec : Nat) : List Byte :=
  let parked := q.state == .parked
  leBytes 16 (packedNat [(0, slot), (6, prec), (8, if parked then q.reason else 0), (16, if parked then q.lanes.toNat else 0),
    (64, if parked then q.obj.toNat else 0)])

/-- Code of a full/empty state. -/
def FE.code : FE → Nat
  | .full => 0
  | .emptyLocal => 1
  | .emptyRemote => 2

/-- A group record: its header, its B vector columns and its uniform registers. -/
def Group.image (g : Group) (slot : Nat) : List Byte :=
  let recs := tabRun PathRec.free g.recs 0 4
  padTo 2048 (leBytes 8 slot ++ leBytes 8 g.index ++ leBytes 8 g.role ++ leBytes 8 g.part ++ leBytes 8 g.age ++
    wordBytes [g.faultaddr, g.faultcode, g.mstat, g.seed] ++ padTo 32 ((tabRun 0 g.p 1 7).flatMap (fun m => leBytes 4 m.toNat)) ++
    leBytes 64 (packedNat (g.fe.map (fun e => (2 * e.1, e.2.code)))) ++ wordBytes (tabRun 0 g.gens 0 32) ++
    recs.flatMap PathRec.image ++ ((List.range 4).zip recs).flatMap (fun e => e.2.parkImage slot e.1)) ++
    (tabRun 0 g.v 0 (32 * g.budget)).flatMap (fun w => leBytes 4 w.toNat) ++ wordBytes (tabRun 0 g.s 0 48)

/-- A loop frame in a bundle's header: offsets within RESUME's object. -/
def Frame.field (f : Frame) : Nat :=
  packedNat [(0, f.count.toNat), (32, ptrOff f.start), (72, ptrOff f.exit), (112, f.depth.toNat)]

/-- Code of a bundle's kind. -/
def BundleKind.code : BundleKind → Nat
  | .spill => 0
  | .spawn => 1
  | .winnow => 2

/-- The header line of a bundle (R246). -/
def Bundle.headerImage (b : Bundle) : List Byte :=
  leBytes 128 (packedNat ([(0, b.pres.toNat), (32, b.left.toNat), (64, b.kind.code), (66, b.role), (68, b.team), (80, b.cols.length),
    (88, b.sregs.length), (96, b.place.depth.toNat), (104, b.place.frames.length), (128, b.place.word.toNat), (192, b.place.block.toNat),
    (256, b.vlive.toNat), (280, b.slive.toNat)] ++
    ((List.range 4).zip b.place.frames).map (fun e => (320 + 120 * e.1, e.2.field))))

/-- The lines of a bundle (R246). -/
def Bundle.image (b : Bundle) : List Byte :=
  b.headerImage ++ wordBytes (tabRun 0 b.gens 0 32) ++ b.cols.flatMap (fun c => (tabRun 0 c.2 0 32).flatMap (fun w => leBytes 4 w.toNat)) ++
    padTo (128 * ceilDiv b.sregs.length 16) (wordBytes (b.sregs.map Prod.snd))

/-- Thread records: the place of each bundle in the barn image, with the lane. -/
def refsImage (bundles : Table Bundle) (refs : List ThreadRef) : List Byte :=
  padTo 128 (refs.flatMap (fun r => leBytes 4 (32 * (bundles.map Prod.fst).idxOf r.bundle + r.lane)))

/-- A bin: key, remaining timer and records. Its key's frames are those of its records' bundles. -/
def Bin.image (b : Bin) (bundles : Table Bundle) : List Byte :=
  padTo 64 (leBytes 8 b.key.place.word.toNat ++ leBytes 8 b.key.place.block.toNat ++ leBytes 4 b.key.value.toNat ++ leBytes 1 b.key.kind.code ++
    leBytes 1 b.key.role ++ leBytes 1 b.key.team ++ leBytes 1 b.key.place.depth.toNat ++ leBytes 4 b.due ++ leBytes 4 b.refs.length) ++
    refsImage bundles b.refs

/-- A copy record: descriptor values, the index of its next line operation, and the operations that await acknowledgement. -/
def Copy.image (c : Copy) : List Byte :=
  padTo 56 (wordBytes c.vals) ++ leBytes 4 (c.count - c.todo.length) ++ leBytes 4 c.flying.length

/-- Lines of the barn in use: those of its bundles, and one for each entry of the launch list. -/
def Core.barnLines (k : Core) : Nat :=
  (k.bundles.map (fun b => bundleLines b.2.cols.length b.2.sregs.length)).foldl (· + ·) 0 + k.launchList.length

/-- Bytes of a core section. -/
def Core.sectionBytes (k : Core) : Nat :=
  512 + 2048 * k.teams.length + (k.groups.map (fun g => 2048 + 128 * g.2.budget + 384)).foldl (· + ·) 0 +
    (k.teams.map (fun t => t.2.bytes + 16384 * t.2.tiles.length)).foldl (· + ·) 0 + 128 * k.barnLines + 64 * 192 + 64 * k.copies.length

/-- A core section. -/
def Core.sectionImage (k : Core) (x logical : Nat) (launchIndex : Nat → Nat) : List Byte :=
  k.headerImage x logical ++ k.teams.flatMap (fun t => t.2.image t.1 (launchIndex t.2.launch)) ++ k.groups.flatMap (fun g => g.2.image g.1) ++
    k.teams.flatMap (fun t => tabRun 0 k.scratch (t.2.base * 128) t.2.bytes) ++
    k.teams.flatMap (fun t => t.2.tiles.flatMap (fun i => (tabRun 0 k.tiles (i * tileElems) tileElems).flatMap (fun w => leBytes 4 w.toNat))) ++
    k.bundles.flatMap (fun b => b.2.image) ++ k.launchList.flatMap (fun l => refsImage k.bundles l.refs) ++
    (List.range 64).flatMap (fun i => ((tabFind k.bins i).map (fun b => b.image k.bundles)).getD (List.replicate 192 0)) ++
    k.copies.flatMap (fun c => c.2.image)

/-! ### Header and directory (R340, R341) -/

/-- Cores that hold a section of a context: those with a team of it. -/
def State.sectionCores (s : State) (x : Nat) : List Nat := (s.awayCores x).filter (fun c => !(s.core c).teams.isEmpty)

/-- Launches of a context in progress. -/
def State.launchesOf (s : State) (x : Nat) : Table Launch :=
  (s.launches.filter (fun l => l.2.ctx == x && l.2.state != .waitingDeps)).take 64

/-- Launch entries of the header: slot pointer, queue number, next team, teams not yet ended. -/
def launchEntry (l : Launch) : List Byte :=
  leBytes 8 l.slot.toNat ++ leBytes 8 l.queue ++ leBytes 8 l.nextTeam ++ leBytes 24 l.live

/-- The save header (R341). -/
def State.saveHeader (s : State) (x : Nat) : List Byte :=
  let c := s.ctx x
  let ls := s.launchesOf x
  leBytes 64 (x + c.job.toNat * 2 ^ 16 + (s.sectionCores x).length * 2 ^ 32 + c.pkr.toNat * 2 ^ 64 + c.cmap.toNat * 2 ^ 128 +
    (s.arrivals x).length * 2 ^ 192 + ls.length * 2 ^ 224) ++
    ls.flatMap (fun l => launchEntry l.2)

/-- Offsets of the core sections, in ascending logical core number. -/
def sectionOffsets : Nat → List (Nat × Core) → List (Nat × Nat)
  | _, [] => []
  | o, (c, k) :: rest => (c, o) :: sectionOffsets (o + k.sectionBytes) rest

/-- Where each section stands, by logical core. -/
def State.sections (s : State) (x : Nat) : List (Nat × Nat) :=
  sectionOffsets 8192 ((s.sectionCores x).map (fun c => (c % 512, s.core c)))

/-- The core directory (R340). -/
def State.directory (s : State) (x : Nat) : List Byte :=
  let os := s.sections x
  (List.range 512).flatMap (fun c => leBytes 8 (tabGet 0 os c))

/-- Bytes of a save area at an offset. -/
def State.saveAt (s : State) (x off : Nat) (bs : List Byte) : State :=
  let p := (s.ctx x).save
  s.tierWrite x (ptrWithOff p (ptrOff p + off)) State.inSave bs

/-- Header, directory and sections. -/
def State.writeSave (s : State) (x : Nat) : State :=
  let index (l : Nat) : Nat := ((s.launchesOf x).map Prod.fst).idxOf l
  let t := (s.saveAt x 0 (padTo 4096 (s.saveHeader x))).saveAt x 4096 (s.directory x)
  (s.sections x).foldl (fun t e => t.saveAt x e.2 ((s.core (awayCore x e.1)).sectionImage x e.1 index)) t

/-- The save area of a saved context follows what is applied to it (R339). -/
def State.rewriteSave (s : State) (x : Nat) : State := if (s.ctx x).state = .saved then s.writeSave x else s

end Sys2Proof.Machine
end

