-- ==== Sys2Proof/Machine/Context.lean ====
section
/-! DEFINITION. Sys2Proof/Machine/Context.lean: the life of a context (R323, R324), pre-emption and save (R337–R342),
restore (R343), and the queue table's EN (R325). A context that is away has its part of each core on a core of number
512 × (context + 1) + logical core number, which issues nothing: results of outstanding operations are applied there. -/

namespace Sys2Proof.Machine

/-! ### Moving a context's part of a core -/

/-- Numbers before and after a move from one core to another. -/
structure Move where
  /-- From. -/
  src : Nat
  /-- To. -/
  dst : Nat
  /-- Context. -/
  ctx : Nat
  /-- Group slots moved; their numbers stay. -/
  slots : List Nat
  /-- Team slots moved. -/
  teams : List Nat
  /-- Accesses. -/
  accs : List (Nat × Nat)
  /-- Copies. -/
  copies : List (Nat × Nat)
  /-- Near-memory operations. -/
  nears : List (Nat × Nat)
  /-- Collective steps. -/
  steps : List (Nat × Nat)
  deriving DecidableEq, Repr

/-- New number. -/
def renum (t : List (Nat × Nat)) (i : Nat) : Option Nat := (t.find? (fun e => e.1 = i)).map Prod.snd

/-- An event of something that moved follows it. -/
def Move.event (m : Move) (e : Instr) : Instr :=
  let num (t : List (Nat × Nat)) (c i : Nat) (f : Nat → Nat → Instr) : Instr :=
    if c = m.src then (match renum t i with | some j => f m.dst j | none => e) else e
  let slot (c i : Nat) (f : Nat → Instr) : Instr := if c = m.src && m.slots.contains i then f m.dst else e
  match e with
  | .longLatencyResult c i => num m.accs c i .longLatencyResult
  | .parkWake c i r => slot c i (fun d => .parkWake d i r)
  | .reconvMerge c i => slot c i (fun d => .reconvMerge d i)
  | .reconvLoneResume c i r => slot c i (fun d => .reconvLoneResume d i r)
  | .groupEnd c i => slot c i (fun d => .groupEnd d i)
  | .matcheckFaultDelivery c i r => slot c i (fun d => .matcheckFaultDelivery d i r)
  | .launchEnqueue c i r => slot c i (fun d => .launchEnqueue d i r)
  | .teamEnd c t => if c = m.src && m.teams.contains t then .teamEnd m.dst t else e
  | .mmvResultsReturn c i u => num m.nears c i (fun d j => .mmvResultsReturn d j u)
  | .copyLineAck c i o => num m.copies c i (fun d j => .copyLineAck d j o)
  | .copyHoldRelease c i => num m.copies c i .copyHoldRelease
  | .snapshotClaim c i => num m.copies c i .snapshotClaim
  | .stepPair c i => num m.steps c i .stepPair
  | .stepResultsFormed c i => num m.steps c i .stepResultsFormed
  | .stepOutAck c i o => num m.steps c i (fun d j => .stepOutAck d j o)
  | .stepDeadline c i => num m.steps c i .stepDeadline
  | e => e

/-- What a lower-deck request serves follows. -/
def Move.lower (m : Move) (r : LowerReq) : LowerReq :=
  if r.core ≠ m.src ∨ r.ctx ≠ m.ctx then r
  else
    { r with
      core := m.dst
      kind := match r.kind with
        | .copy i => .copy ((renum m.copies i).getD i)
        | .att a l => .att ((renum m.accs a).getD a) l
        | .step i o n => .step ((renum m.steps i).getD i) o n }

/-- An upper-deck request follows its access. -/
def Move.upper (m : Move) (r : UpperReq) : UpperReq :=
  if r.core ≠ m.src ∨ r.ctx ≠ m.ctx then r else { r with core := m.dst, acc := (renum m.accs r.acc).getD r.acc }

/-- Everything that names what moved follows it. -/
def State.follow (s : State) (m : Move) : State :=
  { s with
    agenda := s.agenda.map m.event
    inputs := s.inputs.map (fun e => (e.1, m.event e.2))
    lower := s.lower.map (fun e => (e.1, m.lower e.2))
    upper := s.upper.map (fun e => (e.1, m.upper e.2))
    migs := s.migs.map (fun e => (e.1, { e.2 with owner := e.2.owner.map (fun o =>
      if o.1 = m.src then (match renum m.copies o.2 with | some j => (m.dst, j) | none => o) else o) }))
    qps := s.qps.map (fun e => (e.1, e.2.eachReq (fun r => if r.core = m.src ∧ r.ctx = m.ctx then { r with core := m.dst } else r))) }

/-- A core address lies in the scratchpad of one of some teams. -/
def inTeams (ts : Table Team) (a : Nat) : Bool := ts.any (fun t => t.2.base * 128 ≤ a && a < t.2.base * 128 + t.2.bytes)

/-- A group whose words and results have left the pipes (R340 keeps no time of them). -/
def Group.stilled (g : Group) : Group := { g with due := [], recs := g.recs.map (fun q => (q.1, { q.2 with ready := 0 })) }

/-- A completed round, its wait over: of its time its place among the times of a part is left (R200, R273). -/
def Round.stilled (ts : List Nat) (r : Round) : Round := { r with time := (ts.eraseDups.filter (fun t => t < r.time)).length }

/-- A register's completed rounds, their waits over. -/
def CvReg.stilled (ts : List Nat) (c : CvReg) : CvReg := { c with rounds := c.rounds.map (Round.stilled ts) }

/-- Times of a context's completed rounds on a core. -/
def Core.roundTimes (k : Core) (x : Nat) : List Nat :=
  (k.teams.filter (fun t => t.2.ctx == x)).flatMap (fun t => t.2.cvs.flatMap (fun c => c.2.rounds.map Round.time)) ++
    (k.nears.filter (fun n => n.2.ctx == x)).map (fun n => n.2.round.time)

/-- A context's part of a core. -/
def Core.part (k : Core) (x now : Nat) : Core :=
  let groups := k.groups.filter (fun g => g.2.ctx == x)
  let teams := k.teams.filter (fun t => t.2.ctx == x)
  let mine (t : Nat) : Bool := (tabFind teams t).isSome
  let slot (i : Nat) : Bool := (tabFind groups i).isSome
  { k with
    groups := groups.map (fun g => (g.1, g.2.stilled))
    teams := teams.map (fun t => (t.1, { t.2 with
      pins := [], toPin := 0, waiting := false, cvs := t.2.cvs.map (fun c => (c.1, c.2.stilled (k.roundTimes x))) }))
    parts := []
    bundles := (k.bundles.filter (fun b => mine b.2.team)).map (fun b => (b.1, { b.2 with pins := [] }))
    bins := (k.bins.filter (fun b => mine b.2.key.team)).map (fun b => (b.1, { b.2 with due := b.2.due - now }))
    launchList := k.launchList.filter (fun l => mine l.key.team)
    launchedAt := 0
    barnWait := k.barnWait.filter (fun e => slot e.1)
    accs := (k.accs.filter (fun a => a.2.ctx == x)).map (fun a => (a.1, { a.2 with due := 0 }))
    scratch := k.scratch.filter (fun e => inTeams teams e.1)
    marks := k.marks.filter (fun e => inTeams teams (e.1 * 16))
    tiles := k.tiles.filter (fun e => teams.any (fun t => t.2.tiles.contains (e.1 / tileElems)))
    pins := [], barnPins := [], pinCursor := 0, pipes := [], l1 := [], l1Use := 0
    fresh := k.fresh.filter (fun e => e.1 == x), carry := k.carry.filter (fun e => e.1 == x)
    held := [], descs := [], acWait := [], scSeq := [], matrix := Matrix.idle
    nears := (k.nears.filter (fun n => n.2.ctx == x)).map (fun n => (n.1, { n.2 with round := n.2.round.stilled (k.roundTimes x) }))
    copies := k.copies.filter (fun c => c.2.ctx == x)
    rotate := 0
    steps := k.steps.filter (fun c => c.2.ctx == x)
    hitCount := 0
    barDue := k.barDue.filter (fun a => inTeams teams a) }

/-- What stays on a core when a context's part leaves: its ways and lines are freed. -/
def Core.without (k : Core) (x : Nat) : Core :=
  let teams := k.teams.filter (fun t => t.2.ctx == x)
  let mine (t : Nat) : Bool := (tabFind teams t).isSome
  let slot (i : Nat) : Bool := ((tabFind k.groups i).map (fun g => g.ctx == x)).getD false
  let less (t : Table (BitVec 16)) (ways : List (Nat × Nat)) : Table (BitVec 16) := ways.foldl (fun t p => pinPut t p false) t
  { k with
    groups := k.groups.filter (fun g => g.2.ctx != x)
    teams := k.teams.filter (fun t => t.2.ctx != x)
    parts := k.parts.map (fun p => (p.1, ⟨p.2.greedy.filter (fun i => !slot i), p.2.yielded.filter (fun i => !slot i)⟩))
    bundles := k.bundles.filter (fun b => !mine b.2.team)
    bins := k.bins.filter (fun b => !mine b.2.key.team)
    launchList := k.launchList.filter (fun l => !mine l.key.team)
    barnWait := k.barnWait.filter (fun e => !slot e.1)
    accs := k.accs.filter (fun a => a.2.ctx != x)
    scratch := k.scratch.filter (fun e => !inTeams teams e.1)
    marks := k.marks.filter (fun e => !inTeams teams (e.1 * 16))
    tiles := k.tiles.filter (fun e => !teams.any (fun t => t.2.tiles.contains (e.1 / tileElems)))
    pins := less k.pins (teams.flatMap (fun t => t.2.pins))
    barnPins := less k.barnPins ((k.bundles.filter (fun b => mine b.2.team)).flatMap (fun b => b.2.pins))
    l1 := k.l1.filter (fun e => l1Ctx e.1 != x)
    fresh := tabDel k.fresh x, carry := tabDel k.carry x
    descs := k.descs.filter (fun d => d.ctx != x)
    acWait := k.acWait.filter (fun r => !slot r.slot)
    nears := k.nears.filter (fun n => n.2.ctx != x)
    copies := k.copies.filter (fun c => c.2.ctx != x)
    steps := k.steps.filter (fun c => c.2.ctx != x)
    barDue := k.barDue.filter (fun a => !inTeams teams a) }

/-- Identity numbering of a table's keys. -/
def sameKeys {α : Type} (t : Table α) : List (Nat × Nat) := t.map (fun e => (e.1, e.1))

/-- Cores of the module that hold something of a context. -/
def State.coresOf (s : State) (x : Nat) : List Nat :=
  (s.cores.filter (fun c => c.1 < 512 && (c.2.groups.any (fun g => g.2.ctx == x) || c.2.teams.any (fun t => t.2.ctx == x) ||
    c.2.accs.any (fun a => a.2.ctx == x) || c.2.copies.any (fun a => a.2.ctx == x) || c.2.steps.any (fun a => a.2.ctx == x) ||
    c.2.nears.any (fun a => a.2.ctx == x)))).map Prod.fst

/-- Cores whose L1 holds bytes of a context not yet published, or that hold a release for it: its teams there may have ended. -/
def State.holders (s : State) (x : Nat) : List Nat :=
  (s.cores.filter (fun c => c.1 < 512 && (c.2.l1.any (fun e => l1Ctx e.1 == x && e.2.dirty != 0) || !c.2.held.isEmpty))).map Prod.fst

/-- A context's part of a core moves away, and what it held there is free. -/
def State.moveOut (s : State) (x core : Nat) : State :=
  let k := s.core core
  let part := k.part x (s.clockOf core)
  let dst := awayCore x (logCore (s.ctx x).cmap core)
  let m : Move := ⟨core, dst, x, part.groups.map Prod.fst, part.teams.map Prod.fst, sameKeys part.accs, sameKeys part.copies,
    sameKeys part.nears, sameKeys part.steps⟩
  let s := ((s.setCore core (k.without x)).setCore dst part).follow m
  (((s.serveTilesAll core).barnFreed core).wakeReason core 10).enqueue [.binGroupLaunch core]

/-! ### The registers that are kept (R68, R342) -/

/-- A load or atomic without its destination. -/
def withoutD : Instr → Instr
  | .ldc f => .ldc { f with d := 0xF8 }
  | .lds f => .lds { f with d := 0xF8 }
  | .ldm f => .ldm { f with d := 0xF8 }
  | .ldw f => .ldw { f with d := 0xF8 }
  | .atc f => .atc { f with d := 0xF8 }
  | .ats f => .ats { f with d := 0xF8 }
  | .att f => .att { f with d := 0xF8 }
  | i => i

/-- Live masks of the block that holds each record's recorded word, with the record's lanes. -/
def State.recordMasks (s : State) (core : Nat) (g : Group) : List (LaneMask × BitVec 24 × BitVec 8) × State :=
  (g.recs.filter (fun q => q.2.state ≠ .free)).foldl (fun acc q =>
    let (vl, sl, s) := acc.2.liveMasks core g.ctx q.2.place
    (acc.1 ++ [(q.2.lanes, vl, sl)], s)) ([], s)

/-- A register of a specifier code is live in some record. -/
def codeLive (ms : List (LaneMask × BitVec 24 × BitVec 8)) (c : Nat) : Bool :=
  ms.any (fun m => if c < 0xC0 then m.2.1.getLsbD (c / 8) else m.2.2.getLsbD ((c - 0xC0) / 6))

/-- Each thread keeps the v registers that its record's masks cover, the group the s registers that some record's do; every
other register reads zero and is FULL. -/
def Group.keepLive (g : Group) (ms : List (LaneMask × BitVec 24 × BitVec 8)) : Group :=
  { g with
    v := g.v.filter (fun e => ms.any (fun m => m.1.getLsbD (e.1 % 32) && m.2.1.getLsbD (e.1 / 32 / 8)))
    s := g.s.filter (fun e => codeLive ms (0xC0 + e.1))
    fe := g.fe.filter (fun e => codeLive ms e.1) }

/-- The groups of a context on a core keep their live registers; an outstanding result for another register is discarded. -/
def State.keepLive (s : State) (x core : Nat) : State :=
  ((s.core core).groups.filter (fun g => g.2.ctx == x)).foldl (fun s g =>
    let (ms, s) := s.recordMasks core g.2
    s.onCore core (fun k => { k with
      groups := tabMod k.groups g.1 (fun g => g.keepLive ms)
      accs := k.accs.map (fun a => (a.1,
        if a.2.slot = g.1 ∧ ((memOpOf a.2.instr).map (fun o => o.dstRegs.any (codeLive ms))) = some false then
          { a.2 with instr := withoutD a.2.instr }
        else a.2)) })) s

/-! ### Pre-emption (R337–R339) -/

/-- A team of a launch without PREEMPT is resident (R337). -/
def State.preemptDeferred (s : State) (x : Nat) : Bool :=
  s.cores.any (fun c => c.1 < 512 && c.2.teams.any (fun t =>
    t.2.ctx == x && !(((tabFind s.launches t.2.launch).map Launch.preempt).getD true)))

/-- A requested pre-emption begins unless it is deferred. -/
def State.tryPreempt (s : State) (x : Nat) : State :=
  let c := s.ctx x
  if c.preq && c.state == .resident && !s.preemptDeferred x then
    (s.setCtx x { c with state := .saving }).enqueue [.preemptSave x]
  else s

/-- A context is pre-empted: PREQ is set. -/
def State.preempt (s : State) (x : Nat) : State := (s.setCtx x { s.ctx x with preq := true }).tryPreempt x

/-- PREEMPT_REQUEST (R337). -/
def execPreemptRequest (x : Nat) (s : State) : Host.Outcome State Fault Refusal :=
  .next (if 64 ≤ x then s else s.preempt x)

/-- A record has stopped: it is not running, or stands at a block header; a parked record has, woken or not (R338). -/
def PathRec.stopped (q : PathRec) : Bool :=
  match q.state with
  | .running => q.place.word == q.place.block
  | _ => true

/-- An access of a group waits with one whose lanes are parked at the memory port: it is performed after the restore. -/
def Core.behindHeld (k : Core) (a : Access) : Bool := k.accs.any (fun b => b.2.slot == a.slot && b.2.held)

/-- Every record of a context has stopped, its matrix operations have ended, and nothing that program order governs is
under way. -/
def State.teamsStopped (s : State) (x : Nat) : Bool :=
  s.cores.all (fun c => 512 ≤ c.1 ||
    (c.2.groups.all (fun g => g.2.ctx != x || g.2.recs.all (fun q => q.2.stopped)) &&
      !((c.2.matrix.running.map (fun m => m.ctx == x)).getD false) && !c.2.accs.any (fun a => a.2.ctx == x && a.2.ordered && !c.2.behindHeld a.2)))

/-- The steps of R298 on a core: publish, and promote what the core holds for the context. -/
def State.leaveCore (s : State) (x core : Nat) : State :=
  let s := s.publishAll core x
  (s.core core).held.foldl (fun s l => if ((s.dirOf l).held.map (fun h => h.ctx == x)).getD false then s.promoteLine l else s) s

/-! ### Leaving -/

/-- Translations cached for a context are discarded at a switch. -/
def State.dropXlats (s : State) (x : Nat) : State := { s with xlats := s.xlats.filter (fun t => t.otbase != (s.root x).otbase) }

/-- The context's bytes are published and its held releases promoted on every core that has some (R298); then its part of every
core moves away. -/
def State.leave (s : State) (x : Nat) : State :=
  let cs := s.coresOf x
  let s := cs.foldl (fun s c => s.keepLive x c) s
  let s := (s.holders x).foldl (fun s c => s.leaveCore x c) s
  let s := cs.foldl (fun s c => s.moveOut x c) s
  (s.dropXlats x).setCtx x { s.ctx x with away := true }

/-- A saved or resident context whose VALID was cleared meanwhile becomes ending. -/
def State.endIfAsked (s : State) (x : Nat) : State :=
  let c := s.ctx x
  if c.endAfter then (s.setCtx x { c with state := .ending, endAfter := false }).enqueue [.contextFree x] else s

/-- PREEMPT_SAVE (R338–R342): once every record has stopped, the state is saved and STATE becomes saved. -/
def execPreemptSave (x : Nat) (s : State) : Host.Outcome State Fault Refusal :=
  .next (if 64 ≤ x ∨ (s.ctx x).state ≠ .saving ∨ !s.teamsStopped x then s
    else
      let s := s.leave x
      let s := s.setCtx x { s.ctx x with state := .saved, preq := false }
      (s.writeSave x).endIfAsked x)

/-- SAVED_ARRIVAL (R339): an arrival counted in PEND is applied where its target lives; PEND counts what is left, and the save
area follows. -/
def execSavedArrival (x item : Nat) (s : State) : Host.Outcome State Fault Refusal :=
  if 64 ≤ x ∨ !(s.ctx x).away then .next s
  else
    let done : Host.Outcome State Fault Refusal :=
      match (s.arrivals x)[item]? with
      | some (.access c i) => execLongLatencyResult c i s
      | some (.line c j) => execCopyLineAck c j .done s
      | some (.near c j) => execMmvResultsReturn c j false s
      | some (.step c j) => execStepOutAck c j .done s
      | _ => .next s
    match done with
    | .next s => .next (s.rewriteSave x)
    | o => o

/-! ### Restore (R343) -/

/-- A core can give a section the slots, partitions, address lines and tiles that it had, and holds what else comes with it:
thread records, bins, copies, steps and near-memory operations (R13, R25). -/
def Core.accepts (k part : Core) : Bool :=
  let lines := (part.teams.map (fun t => t.2.bytes / 128)).foldl (· + ·) 0 +
    (part.bundles.map (fun b => bundleLines b.2.cols.length b.2.sregs.length)).foldl (· + ·) 0
  part.groups.all (fun g => (tabFind k.groups g.1).isNone) && part.teams.all (fun t => (tabFind k.teams t.1).isNone) &&
    (List.range partCount).all (fun p =>
      ((part.groups.filter (fun g => g.2.part = p)).map (fun g => g.2.budget)).foldl (· + ·) 0 ≤ k.freeRegs.getD p 0) &&
    part.teams.all (fun t => t.2.bytes = 0 || k.teams.all (fun u => u.2.bytes = 0 ||
      t.2.base + t.2.bytes / 128 ≤ u.2.base || u.2.base + u.2.bytes / 128 ≤ t.2.base)) &&
    part.teams.all (fun t => t.2.tiles.all (fun i => k.freeTiles.contains i)) &&
    k.pinTotal + k.toPin + lines ≤ scratchLines && k.barnCount + part.barnCount ≤ barnMax &&
    k.bins.length + part.bins.length ≤ binCount && k.copies.length + part.copies.length ≤ copySlots &&
    k.steps.length + part.steps.length ≤ stepSlots && k.nears.length + part.nears.length ≤ nearSlots

/-- Physical clusters for the logical clusters of a context: each the lowest free one in CLMASK that accepts its
sections; none when the whole of it cannot be placed. -/
def State.chooseClusters (s : State) (x : Nat) : List Nat → List (Nat × Nat) → Option (List (Nat × Nat))
  | [], acc => some acc
  | i :: rest, acc =>
    let mine := (s.awayCores x).filter (fun c => c % 512 / 32 = i)
    match (List.range 16).find? (fun p => (s.ctx x).clmask.getLsbD p && !acc.any (fun e => e.2 == p) &&
        mine.all (fun c => (s.core (p * 32 + c % 32)).accepts (s.core c))) with
    | none => none
    | some p => s.chooseClusters x rest (acc ++ [(i, p)])

/-- The cluster map of a choice: the other logical clusters take the other physical ones in order. -/
def clusterMap (chosen : List (Nat × Nat)) : Word64 :=
  let freeL := (List.range 16).filter (fun i => !chosen.any (fun e => e.1 == i))
  let freeP := (List.range 16).filter (fun p => !chosen.any (fun e => e.2 == p))
  BitVec.ofNat 64 (((chosen ++ freeL.zip freeP).map (fun e => e.2 * 16 ^ e.1)).foldl (· + ·) 0)

/-- The lowest numbers that a table does not use, for the keys of another. -/
def freshKeys {α β : Type} (t : Table α) (u : Table β) : List (Nat × Nat) :=
  (u.map Prod.fst).zip ((List.range (t.length + u.length)).filter (fun i => (tabFind t i).isNone))

/-- Shifted keys. -/
def shiftKeys {α : Type} (n : Nat) (t : Table α) : Table α := t.map (fun e => (e.1 + n, e.2))

/-- Put entries into a table. -/
def tabPutAll {α : Type} (t : Table α) (u : List (Nat × α)) : Table α := u.foldl (fun t e => tabPut t e.1 e.2) t

/-- A parked record after a restore (R193, R343): it reissues, but with reasons 6 and 11, which keep their park, and with
reason 5, which waits for room again. -/
def PathRec.restored (q : PathRec) : PathRec :=
  if q.state ≠ .parked ∨ q.reason = 6 ∨ q.reason = 11 ∨ q.reason = 5 then q
  else { q with state := .running, reason := 0, obj := 0, answer := none, arrive := none, drained := none, waitPtrs := [], woken := false }

/-- A group after a restore: a register whose result is still awaited is EMPTY-REMOTE (R193). -/
def Group.restored (g : Group) : Group :=
  { g with
    recs := g.recs.map (fun q => (q.1, q.2.restored))
    fe := g.fe.map (fun e => (e.1, if e.2 = .emptyLocal then .emptyRemote else e.2)) }

/-- A core with a section loaded. -/
def Core.load (k part : Core) (m : Move) (now : Nat) : Core :=
  let na := k.nextAcc
  let nb := k.nextBundle
  let refs (rs : List ThreadRef) : List ThreadRef := rs.map (fun r => { r with bundle := r.bundle + nb })
  { k with
    groups := tabPutAll k.groups (part.groups.map (fun g => (g.1, g.2.restored)))
    teams := tabPutAll k.teams (part.teams.map (fun t => (t.1, { t.2 with cvs := t.2.cvs.map (fun c =>
      (c.1, { c.2 with rounds := c.2.rounds.map (fun r => { r with order := r.order + k.nextRound }) })) })))
    bundles := tabPutAll k.bundles (shiftKeys nb part.bundles)
    nextBundle := nb + part.nextBundle
    bins := tabPutAll k.bins ((freshKeys k.bins part.bins).zip part.bins |>.map (fun e =>
      (e.1.2, { e.2.2 with due := e.2.2.due + now, refs := refs e.2.2.refs })))
    launchList := k.launchList ++ part.launchList.map (fun l => { l with refs := refs l.refs })
    barnWait := k.barnWait ++ part.barnWait
    accs := tabPutAll k.accs (shiftKeys na part.accs)
    nextAcc := na + part.nextAcc
    scratch := tabPutAll k.scratch part.scratch
    marks := tabPutAll k.marks part.marks
    tiles := tabPutAll k.tiles part.tiles
    fresh := tabPutAll k.fresh part.fresh
    carry := tabPutAll k.carry part.carry
    nextRound := k.nextRound + part.nextRound
    nears := tabPutAll k.nears (part.nears.map (fun n => ((renum m.nears n.1).getD n.1, n.2)))
    copies := tabPutAll k.copies (part.copies.map (fun c => ((renum m.copies c.1).getD c.1, { c.2 with order := c.2.order + k.nextCopy })))
    nextCopy := k.nextCopy + part.nextCopy
    steps := tabPutAll k.steps (part.steps.map (fun c => ((renum m.steps c.1).getD c.1, c.2)))
    barDue := k.barDue ++ part.barDue }

/-- Pin n lines of scratchpad through the allocator's placement. -/
def State.pinLines (s : State) (core : Nat) : Nat → List (Nat × Nat) × State
  | 0 => ([], s)
  | n + 1 =>
    let k := s.core core
    match ((List.range l1Sets).map (fun i => (k.pinCursor + i) % l1Sets)).find? (fun i => k.pinned i < pinMax) with
    | none => ([], s)
    | some set =>
      let (way, s) := s.pinWay core set false
      let s := s.onCore core (fun k => { k with pinCursor := (set + 1) % l1Sets })
      let (rest, s) := s.pinLines core n
      (way :: rest, s)

/-- Events of records that wait again after a restore. -/
def Core.waitEvents (k : Core) (core : Nat) (slots : List Nat) : List Instr :=
  (k.groups.filter (fun g => slots.contains g.1)).flatMap (fun g =>
    (g.2.recs.filter (fun q => q.2.state == .parked && (q.2.woken || q.2.reason == 5))).map (fun q => .parkWake core g.1 q.1))

/-- A section is loaded on a core, its lines pinned. -/
def State.moveIn (s : State) (x src dst : Nat) : State :=
  let part := s.core src
  let k := s.core dst
  let m : Move := ⟨src, dst, x, part.groups.map Prod.fst, part.teams.map Prod.fst, part.accs.map (fun a => (a.1, a.1 + k.nextAcc)),
    freshKeys k.copies part.copies, freshKeys k.nears part.nears, freshKeys k.steps part.steps⟩
  let s := ((s.setCore dst (k.load part m (s.clockOf dst))).setCore src Core.idle).follow m
  let s := part.teams.foldl (fun s t =>
    let (sets, s) := s.pinLines dst (t.2.bytes / 128)
    s.onCore dst (fun k => { k with teams := tabMod k.teams t.1 (fun u => { u with pins := sets }) })) s
  let s := part.bundles.foldl (fun s b =>
    let (sets, s) := s.pinBarn dst (bundleLines b.2.cols.length b.2.sregs.length)
    s.onCore dst (fun k => { k with bundles := tabMod k.bundles (b.1 + (k.nextBundle - part.nextBundle)) (fun u => { u with pins := sets }) })) s
  let s : State := { s with launches := s.launches.map (fun l =>
    if part.teams.any (fun t => t.2.launch == l.1) && !l.2.cores.contains dst then (l.1, { l.2 with cores := l.2.cores ++ [dst] }) else l) }
  let s := s.onCore dst (fun k => { k with groups := k.groups.map (fun g =>
    if m.slots.contains g.1 then (g.1, { g.2 with recs := g.2.recs.map (fun q =>
      (q.1, if q.2.state = .parked ∧ (q.2.woken ∨ q.2.reason = 5) then { q.2 with woken := true } else q.2)) }) else g) })
  (s.enqueue ((s.core dst).waitEvents dst m.slots)).enqueue [.binGroupLaunch dst]

/-- A restore is requested: RREQ is set. -/
def State.requestRestore (s : State) (x : Nat) : State := (s.setCtx x { s.ctx x with rreq := true }).enqueue [.contextRestore x]

/-- RESTORE_REQUEST (R343): RREQ is set. -/
def execRestoreRequest (x : Nat) (s : State) : Host.Outcome State Fault Refusal := .next (if 64 ≤ x then s else s.requestRestore x)

/-- Logical clusters of a context that is away, ascending. -/
def State.awayClusters (s : State) (x : Nat) : List Nat :=
  (List.range 16).filter (fun i => (s.awayCores x).any (fun c => c % 512 / 32 = i))

/-- The images are loaded (R343). -/
def State.loadImages (s : State) (x : Nat) (chosen : List (Nat × Nat)) : State :=
  let cmap := clusterMap chosen
  let cs := s.awayCores x
  let s := s.setCtx x { s.ctx x with cmap := cmap, away := false }
  cs.foldl (fun s c => s.moveIn x c (physCore cmap (c % 512))) s

/-- CONTEXT_RESTORE (R343): a saved context whose whole can be placed passes through restoring, where nothing of it
issues, and is resident once the steps of R298 are performed. -/
def execContextRestore (x : Nat) (s : State) : Host.Outcome State Fault Refusal :=
  let c := s.ctx x
  .next (if 64 ≤ x then s
    else if c.state = .saved ∧ c.rreq then
      match s.chooseClusters x (s.awayClusters x) [] with
      | none => s
      | some chosen =>
        let s := s.loadImages x chosen
        (s.setCtx x { s.ctx x with state := .restoring }).enqueue [.contextRestore x]
    else if c.state = .restoring then
      let s := (s.coresOf x).foldl (fun s k => s.invalidateL1 k x) s
      ((s.setCtx x { s.ctx x with state := .resident, rreq := false }).endIfAsked x).tryPreempt x
    else s)

/-! ### Validation and end (R323, R324) -/

/-- The scheduler's view of a context's queues starts from HEAD again. -/
def State.rereadQueue (s : State) (n : Nat) : State :=
  let q := s.queue n
  let s : State := { s with launches := s.launches.filter (fun l => !(l.2.queue == n && l.2.state == LaunchState.waitingDeps)) }
  match s.queueWord q.ctx.toNat q.qptr 0 with
  | .ok (h, s) => (s.setQueue n { q with next := h, head := h, tail := h, done := [] }).enqueue [.schedulerTailReread n]
  | .error _ => s

/-- CONTEXT_VALIDATE (R323, R354, R387): a free context becomes resident, its windows, chains, PKR, log registers and
cluster map at their initial values. -/
def execContextValidate (x : Nat) (s : State) : Host.Outcome State Fault Refusal :=
  let c := s.ctx x
  .next (if 64 ≤ x ∨ c.state ≠ .free then s
    else
      let s := { s with
        windows := s.windows.filter (fun w => w.1 / 256 != x)
        chains := s.chains.filter (fun w => w.1 / 256 != x) }
      let s := s.setCtx x { c with valid := true, state := .resident, pkr := 0, log := LogRegs.zero, cmap := Context.reset.cmap,
                                   endAfter := false, away := false, saveFailed := false }
      ((List.range 64).filter (fun n => (s.queue n).usable && (s.queue n).ctx.toNat == x)).foldl State.rereadQueue s)

/-- CONTEXT_END (R324): VALID is cleared. -/
def execContextEnd (x : Nat) (s : State) : Host.Outcome State Fault Refusal :=
  let c := s.ctx x
  .next (if 64 ≤ x then s
    else
      match c.state with
      | .free => s.setCtx x { c with valid := false }
      | .resident => (s.setCtx x { c with valid := false, state := .ending }).enqueue [.contextFree x]
      | .saved => (s.setCtx x { c with valid := false, state := .ending }).enqueue [.contextFree x]
      | .saving => s.setCtx x { c with valid := false, endAfter := true }
      | .restoring => s.setCtx x { c with valid := false, endAfter := true }
      | .ending => s)

/-- What is left of an ending context's copy: the line operations that it has issued and that no translation holds. -/
def Copy.ending (y : Copy) : Copy :=
  { y with
    todo := [], waitDrain := false, waitFull := false, hold := none
    flying := if y.hold.isSome then y.flying.filter (fun f => !f.held) else y.flying }

/-- What an ending context has not begun is discarded: line operations not issued, what a translation holds, accesses of
parked records, steps whose results are not formed. -/
def State.discard (s : State) (x : Nat) : State :=
  let s : State := { s with upper := s.upper.filter (fun e => e.2.ctx != x) }
  let s := (s.allSteps.filter (fun y => y.2.2.ctx == x)).foldl (fun s y => s.abortStep y.1 y.2.1 true) s
  (s.awayCores x).foldl (fun s c => s.onCore c (fun k =>
    { k with
      copies := (k.copies.map (fun y => (y.1, y.2.ending))).filter (fun y => !y.2.flying.isEmpty)
      nears := k.nears.filter (fun n => n.2.hold.isNone)
      accs := k.accs.filter (fun a => a.2.performed || (!a.2.held && !a.2.ordered)) })) s

/-- CONTEXT_FREE (R324): an ending context's teams stop and leave their cores; it is free once nothing of it is
outstanding. -/
def execContextFree (x : Nat) (s : State) : Host.Outcome State Fault Refusal :=
  let c := s.ctx x
  .next (if 64 ≤ x ∨ c.state ≠ .ending then s
    else if !c.away && !s.teamsStopped x then s
    else
      let s := (if c.away then s else s.leave x).discard x
      if !(s.arrivals x).isEmpty || s.lower.any (fun r => r.2.ctx == x) then s
      else
        let s := (s.awayCores x).foldl (fun s k => s.setCore k Core.idle) s
        let s : State := { s with launches := s.launches.filter (fun l => l.2.ctx != x) }
        s.setCtx x { s.ctx x with valid := false, state := .free, preq := false, rreq := false, away := false, endAfter := false })

/-! ### The queue table's EN (R325) -/

/-- A launch of a queue is dispatching or admitted. -/
def State.queueBusy (s : State) (n : Nat) : Bool := s.launches.any (fun l => l.2.queue == n && l.2.state != .waitingDeps)

/-- QUEUE_ENABLE (R325): EN is set; a queue with nothing in progress is read from its HEAD. -/
def execQueueEnable (n : Nat) (s : State) : Host.Outcome State Fault Refusal :=
  .next (if 64 ≤ n ∨ (s.queue n).en then s
    else
      let s := s.setQueue n { s.queue n with en := true }
      if !(s.queue n).usable then s
      else if s.queueBusy n then s.enqueue [.schedulerTailReread n]
      else s.rereadQueue n)

/-- QUEUE_DISABLE (R325): EN is cleared; no further launch dispatches. -/
def execQueueDisable (n : Nat) (s : State) : Host.Outcome State Fault Refusal :=
  .next (if 64 ≤ n then s else s.setQueue n { s.queue n with en := false })

end Sys2Proof.Machine
end

