-- ==== Sys2Proof/Machine/Registers.lean ====
section
/-! DEFINITION. Sys2Proof/Machine/Registers.lean: writes of configuration fields (R7): each takes the bits that the field
has, and is ignored where the field's rule says so. -/

namespace Sys2Proof.Machine

/-- STATE forbids a write to a context-table or root-table field (R323, R346). -/
def Context.locked (c : Context) (ending : Bool) : Bool :=
  match c.state with
  | .resident => true
  | .saving => true
  | .restoring => true
  | .ending => ending
  | _ => false

/-- Write a context-table field unless STATE forbids it. -/
def State.ctxField (s : State) (x : Nat) (f : Context → Context) : State :=
  if 64 ≤ x ∨ (s.ctx x).locked true then s else s.setCtx x (f (s.ctx x))

/-- Write a queue-table field unless EN is 1 or a launch of the queue is in progress (R325). -/
def State.queueField (s : State) (n : Nat) (f : Queue → Queue) : State :=
  if 64 ≤ n ∨ (s.queue n).en ∨ s.queueBusy n then s else s.setQueue n (f (s.queue n))

/-- Write a root-table field (R346). -/
def State.rootField (s : State) (x : Nat) (f : Root → Root) : State :=
  if 64 ≤ x ∨ (s.ctx x).locked false then s else { s with roots := tabSet ⟨0, 0⟩ s.roots x (f (s.root x)) }

/-- Memory controllers of the module (R358). -/
def ctlCount : Nat := 36
/-- Migration entries of a controller. -/
def migCount : Nat := 8

/-- A migration entry. -/
def State.mig (s : State) (ctl entry : Nat) : Migration := tabGet Migration.reset s.migs (ctl * 8 + entry)
/-- Replace a migration entry. -/
def State.setMig (s : State) (ctl entry : Nat) (m : Migration) : State := { s with migs := tabSet Migration.reset s.migs (ctl * 8 + entry) m }

/-- Write a migration field unless EN is 1 (R358). -/
def State.migField (s : State) (ctl entry : Nat) (f : Migration → Migration) : State :=
  if ctlCount ≤ ctl ∨ migCount ≤ entry ∨ (s.mig ctl entry).en then s else s.setMig ctl entry (f (s.mig ctl entry))

/-- Write a port field (R380). -/
def State.portField (s : State) (r p : Nat) (f : Port → Port) : State :=
  if routerCount ≤ r ∨ portCount ≤ p then s else s.onPort r p f

/-- Replace word k of a value of several 64-bit words, within the bits that it has. -/
def putWord {n : Nat} (x : BitVec n) (k : Nat) (v : Word64) (bits : Nat) : BitVec n :=
  let m : Nat := ((2 ^ 64 - 1) <<< (64 * k)) &&& bits
  (x &&& ~~~(BitVec.ofNat n m)) ||| BitVec.ofNat n ((v.toNat <<< (64 * k)) &&& bits)

/-- A mask of bits hi to lo. -/
def bitRange (hi lo : Nat) : Nat := 2 ^ (hi + 1) - 2 ^ lo

/-- Writable bits of a region entry (R411). -/
def regionBits : Nat := bitRange 3 0 + bitRange 23 16 + bitRange 159 32

/-- Writable bits of a gang slot (R395); RES0 fields hold what is written, for the check of R396. -/
def gangBits : Nat := bitRange 255 0 + bitRange 319 312 + bitRange 1023 384

/-- Write a 64-bit word of a queue-pair entry (R412): RO fields keep their value, SPSN and EPSN while VALID is 1. -/
def QueuePair.put (q : QueuePair) (k : Nat) (v : Word64) : QueuePair :=
  match k with
  | 0 => { q with mtu := fieldOf v 3 2, pd := fieldOf v 8 8, job := fieldOf v 16 16, rqpn := fieldOf v 32 24, port := fieldOf v 56 3 }
  | 1 => if q.valid then q else { q with spsn := fieldOf v 0 24, epsn := fieldOf v 32 24 }
  | 2 => { q with dst := putWord q.dst 0 v (bitRange 127 0) }
  | 3 => { q with dst := putWord q.dst 1 v (bitRange 127 0) }
  | 4 => { q with rcq := v }
  | 5 => { q with rcn := fieldOf v 0 4, rbuf := BitVec.ofNat 32 (fieldOf v 32 32) }
  | _ => q

/-- CONFIG_REGISTER_WRITE (R7). DESIGN CHOICE (log 187): a write of a resume word sets GO to the bit written, 1 to ask for the action
and 0 for none. R7 has a 1 clear a W1C bit, and R356 has software set this one; the spec does not say which holds for a write of
0 or 1 to it. -/
def execConfigRegisterWrite (reg : ConfigReg) (v : Word64) (s : State) : Host.Outcome State Fault Refusal :=
  .next (match reg with
    | .ctxJob x => s.ctxField x (fun c => { c with job := v.setWidth 16 })
    | .ctxCos x => s.ctxField x (fun c => { c with cos := v.setWidth 4 })
    | .ctxPreq x => if 64 ≤ x then s else if v.getLsbD 0 then s.preempt x else s.setCtx x { s.ctx x with preq := false }
    | .ctxRreq x => if 64 ≤ x then s else if v.getLsbD 0 then s.requestRestore x else s.setCtx x { s.ctx x with rreq := false }
    | .ctxClmask x => s.ctxField x (fun c => { c with clmask := v.setWidth 16 })
    | .ctxSave x => s.ctxField x (fun c => { c with save := v })
    | .ctxFlog x => s.ctxField x (fun c => { c with flog := v })
    | .queueQptr n => s.queueField n (fun q => { q with qptr := v })
    | .queueLogn n => s.queueField n (fun q => { q with logn := v.setWidth 4 })
    | .queueCtx n => s.queueField n (fun q => { q with ctx := v.setWidth 6 })
    | .rootOtbase x => s.rootField x (fun r => { r with otbase := fieldOf v 0 56 })
    | .rootOnum x => s.rootField x (fun r => { r with onum := fieldOf v 0 22 })
    | .resume x => if 64 ≤ x then s else { s with resume := tabSet 0 s.resume x (v &&& BitVec.ofNat 64 (bitRange 10 0 + bitRange 32 16 + 2 ^ 63)) }
    | .migSrc c e => s.migField c e (fun m => { m with src := fieldOf v 0 56 })
    | .migDst c e => s.migField c e (fun m => { m with dst := fieldOf v 0 56 })
    | .migLines c e => s.migField c e (fun m => { m with lines := fieldOf v 0 32 })
    | .migMode c e => s.migField c e (fun m => { m with mode := v.getLsbD 0 })
    | .cosMask k => if 16 ≤ k then s else { s with cosMasks := tabSet 0xFFFF s.cosMasks k (v.setWidth 16) }
    | .hostCos => { s with hostCos := v.setWidth 4 }
    | .portEnable r p => s.portField r p (fun q => if v.getLsbD 0 then (if q.st = 2 then { q with en := true } else ({ q with en := true } : Port).train s.time) else q)
    | .portGencap r p => s.portField r p (fun q => { q with gencap := v.setWidth 2 })
    | .portRetry r p => s.portField r p (fun q => { q with retry := (BitVec.ofNat 32 q.retry &&& ~~~(v.setWidth 32)).toNat })
    | .route r d => if routerCount ≤ r ∨ 256 ≤ d then s else s.setRouter r { s.router r with routes := tabSet 0 (s.router r).routes d (fieldOf v 0 4) }
    | .fto => if 1000 ≤ v.toNat ∧ v.toNat ≤ 1000000000 then { s with fto := v.toNat } else s
    | .gangTail => { s with gangTail := v.toNat }
    | .gangWord n k => if 16 ≤ n ∨ 16 ≤ k then s else { s with gangSlots := tabSet 0 s.gangSlots n (putWord (tabGet 0 s.gangSlots n) k v gangBits) }
    | .region i k => if 65536 ≤ i ∨ 4 ≤ k then s else { s with regions := tabSet 0 s.regions i (putWord (tabGet 0 s.regions i) k v regionBits) }
    | .qpWord i k => if 4096 ≤ i ∨ 8 ≤ k then s else { s with qps := tabSet QueuePair.reset s.qps i ((tabGet QueuePair.reset s.qps i).put k v) }
    | .errLog x => { s with errLog := v, errLogCtx := x % 64 }
    | .moduleId => { s with moduleId := v.setWidth 8 }
    | .ptime => { s with ptime := v }
    | .carve k => if 3 ≤ k ∨ (List.range 64).any (fun x => (s.ctx x).locked false) then s else { s with carves := tabSet 0 s.carves k v.toNat })

end Sys2Proof.Machine
end

