-- ==== Sys2Proof/Machine/Sha.lean ====
section
/-! DEFINITION. Sys2Proof/Machine/Sha.lean: SHA-384 (R449 names it; FIPS 180-4 gives it). -/

namespace Sys2Proof.Machine

/-- Largest r below 2^bits with r^e at most n: a root taken bit by bit. -/
def rootBits (e n : Nat) : Nat → Nat → Nat
  | 0, r => r
  | b + 1, r => if (r + 2 ^ b) ^ e ≤ n then rootBits e n b (r + 2 ^ b) else rootBits e n b r

/-- The first 80 primes. -/
def shaPrimes : List Nat :=
  ((List.range 410).filter (fun n => 2 ≤ n && (List.range n).all (fun d => d < 2 || n % d != 0))).take 80

/-- Round constants: 64 bits of the fractional parts of the primes' cube roots. -/
def shaK : List Word64 := shaPrimes.map (fun p => BitVec.ofNat 64 (rootBits 3 (p * 2 ^ 192) 68 0))

/-- Initial value: 64 bits of the fractional parts of the square roots of the ninth to sixteenth primes. -/
def shaInit : List Word64 := ((shaPrimes.drop 8).take 8).map (fun p => BitVec.ofNat 64 (rootBits 2 (p * 2 ^ 128) 68 0))

/-- The sixteen words of a block of bytes, most significant byte first. -/
def shaWords (bs : List Byte) : List Word64 :=
  (List.range 16).map (fun i => BitVec.ofNat 64 (((bs.drop (8 * i)).take 8).foldl (fun a b => a * 256 + b.toNat) 0))

/-- The message schedule, newest word first. -/
def shaSchedule : Nat → List Word64 → List Word64
  | 0, w => w
  | n + 1, w =>
    let a := w.getD 1 0
    let b := w.getD 14 0
    let s1 := a.rotateRight 19 ^^^ a.rotateRight 61 ^^^ (a >>> 6)
    let s0 := b.rotateRight 1 ^^^ b.rotateRight 8 ^^^ (b >>> 7)
    shaSchedule n ((s1 + w.getD 6 0 + s0 + w.getD 15 0) :: w)

/-- One round. -/
def shaRound (v : List Word64) (kw : Word64) : List Word64 :=
  match v with
  | [a, b, c, d, e, f, g, h] =>
    let t1 := h + (e.rotateRight 14 ^^^ e.rotateRight 18 ^^^ e.rotateRight 41) + ((e &&& f) ^^^ (~~~e &&& g)) + kw
    let t2 := (a.rotateRight 28 ^^^ a.rotateRight 34 ^^^ a.rotateRight 39) + ((a &&& b) ^^^ (a &&& c) ^^^ (b &&& c))
    [t1 + t2, a, b, c, d + t1, e, f, g]
  | v => v

/-- One block of 128 bytes. -/
def shaBlock (h : List Word64) (bs : List Byte) : List Word64 :=
  let w := (shaSchedule 64 (shaWords bs).reverse).reverse
  let v := ((shaK.zip w).map (fun e => e.1 + e.2)).foldl shaRound h
  (h.zip v).map (fun e => e.1 + e.2)

/-- Bytes of a word, most significant first. -/
def bigBytes (n x : Nat) : List Byte := (leBytes n x).reverse

/-- SHA-384 of a message of fewer than 112 bytes: one block. -/
def sha384 (m : List Byte) : List Byte :=
  let bs := m ++ [0x80] ++ List.replicate (128 - m.length - 9) 0 ++ bigBytes 8 (8 * m.length)
  ((shaBlock shaInit bs).take 6).flatMap (fun w => bigBytes 8 w.toNat)

end Sys2Proof.Machine
end

