-- ==== Sys2Proof/Machine/Boot.lean ====
section
/-! DEFINITION. Sys2Proof/Machine/Boot.lean: reset and boot (R448), measurements (R449), islands (R450, R451), capping
(R452), the thermal limit (R453), and module reset (R455). -/

namespace Sys2Proof.Machine

/-! ### Boot and measurements -/

/-- A measurement slot. -/
def State.slot (s : State) (k : Nat) : BitVec 384 := tabGet 0 s.slots k

/-- A measurement: SHA-384 of the old value followed by the digest. -/
def State.measure (s : State) (k : Nat) (digest : BitVec 384) : State :=
  { s with slots := tabSet 0 s.slots k (BitVec.ofNat 384 (leNat (sha384 (leBytes 48 (s.slot k).toNat ++ leBytes 48 digest.toNat)))) }

/-- All memory of the module is cleared. -/
def State.clearMemory (s : State) : State :=
  { s with
    mem := s.mem.filter (fun e => paModule e.1 != s.moduleId.toNat)
    failed := s.failed.filter (fun l => paModule (l * 128) != s.moduleId.toNat) }

/-- Every enabled port begins training. -/
def State.trainPorts (s : State) : State :=
  (List.range routerCount).foldl (fun s r => (List.range portCount).foldl (fun s p =>
    s.onPort r p (fun q => if q.en then q.train s.time else q)) s) s

/-- Boot phases from 1 to 5 in order; a phase that fails stops the boot (R448). -/
def State.bootPhase (s : State) (boot : BootImages) (n : Nat) : State :=
  let s := match n with
    | 1 => s.measure 0 boot.first
    | 2 => s.clearMemory.measure 1 boot.second
    | 3 => (s.measure 2 boot.hostFw).measure 3 boot.schedFw
    | 4 => s.trainPorts
    | _ => s
  { s with bootStatus := n }

/-- The boot status word's failure bit. -/
def bootFailed : Nat := 256

/-- RESET_RELEASE (R448): the phases up to the first that fails. -/
def execResetRelease (boot : BootImages) (s : State) : Host.Outcome State Fault Refusal :=
  .next (if s.bootStatus ≠ 0 then s
    else
      match boot.failing with
      | none => [1, 2, 3, 4, 5].foldl (fun s n => s.bootPhase boot n) s
      | some k =>
        let s := ([1, 2, 3, 4, 5].filter (fun n => n < k)).foldl (fun s n => s.bootPhase boot n) s
        { s with bootStatus := s.bootStatus + bootFailed })

/-- MEASUREMENT_EXTEND (R449): host software extends slots 4 to 7. -/
def execMeasurementExtend (k : Nat) (digest : BitVec 384) (s : State) : Host.Outcome State Fault Refusal :=
  .next (if k < 4 ∨ 8 ≤ k then s else s.measure k digest)

/-- SPDM_GET_MEASUREMENTS (R449). -/
def execSpdmGetMeasurements (nonce : BitVec 256) (s : State) : Host.Outcome State Fault Refusal :=
  let ss := (List.range 8).map s.slot
  .next { s with reports := ⟨nonce, ss, Config.deviceSign nonce ss⟩ :: s.reports }

/-! ### Islands (R450–R453) -/

/-- Islands of the module. -/
def islandCount : Nat := 24
/-- An island's entry. -/
def State.island (s : State) (i : Nat) : Island := (tabFind s.islands i).getD (Island.reset i)
/-- Change an island's entry. -/
def State.onIsland (s : State) (i : Nat) (f : Island → Island) : State := { s with islands := tabPut s.islands i (f (s.island i)) }

/-- The lowest and highest frequency step of an island. -/
def islandLow (i : Nat) : Nat := if i < 16 then 20 else 10
/-- The highest. -/
def islandHigh (i : Nat) : Nat := if i < 16 then 80 else 40

/-- FTGT_WRITE (R450, R456): the value within the island's limits; FCUR follows unless capping or the thermal limit holds
it, and never exceeds it. -/
def execFtgtWrite (i : Nat) (v : BitVec 7) (s : State) : Host.Outcome State Fault Refusal :=
  .next (if 20 ≤ i then s
    else
      let f := min (max v.toNat (islandLow i)) (islandHigh i)
      s.onIsland i (fun x => { x with ftgt := f, fcur := if x.capped ∨ x.therm then min x.fcur f else f, capped := x.capped && x.fcur < f }))

/-- PCAP_WRITE (R452). -/
def execPcapWrite (v : BitVec 12) (s : State) : Host.Outcome State Fault Refusal :=
  .next { s with pcap := min (max v.toNat 1500) 3000 }

/-- A cluster island's capping step. -/
def Island.cap (x : Island) (watts pcap : Nat) : Island :=
  let f := if pcap < watts then max (x.fcur - 1) 20
    else if watts + 100 < pcap ∧ !x.therm then min (x.fcur + 1) x.ftgt
    else x.fcur
  let f := min f x.ftgt
  { x with fcur := f, capped := f < x.ftgt && (x.capped || pcap < watts) }

/-- CAPPING_STEP (R452): P and each island's voltage and power are what the sensors read. -/
def execCappingStep (watts : Nat) (sensors : List (Nat × Nat)) (s : State) : Host.Outcome State Fault Refusal :=
  let s := ((List.range islandCount).zip sensors).foldl (fun s e => s.onIsland e.1 (fun x => { x with vcur := e.2.1 % 4096, pwr := e.2.2 % 2 ^ 32 })) s
  .next ((List.range 16).foldl (fun s i => s.onIsland i (fun x => x.cap watts s.pcap)) s)

/-- OVERCURRENT (R452): every cluster island at 2.0 GHz at most. -/
def execOvercurrent (s : State) : Host.Outcome State Fault Refusal :=
  .next ((List.range 16).foldl (fun s i => s.onIsland i (fun x => { x with fcur := min x.fcur 40, capped := x.capped || 40 < min x.fcur x.ftgt })) s)

/-- THERMAL_STEP (R453): above 105 °C the island's FCUR falls by one step. -/
def execThermalStep (i milliCelsius : Nat) (s : State) : Host.Outcome State Fault Refusal :=
  .next (if islandCount ≤ i ∨ milliCelsius ≤ 105000 then s
    else s.onIsland i (fun x => { x with therm := true, fcur := if islandLow i < x.fcur then x.fcur - 1 else x.fcur }))

/-- THERM_CLEAR (R453): below 100 °C; a cluster island's FCUR returns by capping steps, another's at once. -/
def execThermClear (i : Nat) (s : State) : Host.Outcome State Fault Refusal :=
  .next (if islandCount ≤ i ∨ !(s.island i).therm then s
    else s.onIsland i (fun x => { x with therm := false, fcur := if i < 16 then x.fcur else x.ftgt }))

/-! ### Module reset (R453, R455) -/

/-- The module is reset: its own state is that after reset; the memory and the directories of other modules, what other
modules' agents hold, and what is still to come from outside stay. -/
def State.moduleReset (s : State) : State :=
  let own := s.moduleId.toNat
  { State.reset with
    agenda := s.agenda
    inputs := s.inputs
    freeCtr := s.freeCtr
    mem := s.mem
    failed := s.failed
    l2 := s.l2.filter (fun e => e.1 / 2 ^ 49 / 8 != own)
    dir := s.dir.filter (fun e => paModule (e.1 * 128) != own)
    mirrorDir := s.mirrorDir.filter (fun e => paModule (e.1 * 128) != own) }

/-- MODULE_RESET (R455). -/
def execModuleReset (s : State) : Host.Outcome State Fault Refusal := .next s.moduleReset

/-- THERMAL_SHUTDOWN (R453): power is removed, and the module is reset. -/
def execThermalShutdown (s : State) : Host.Outcome State Fault Refusal := .next s.moduleReset

end Sys2Proof.Machine
end

