-- ==== Sys2Proof/Machine/Gang.lean ====
section
/-! DEFINITION. Sys2Proof/Machine/Gang.lean: the gang queue (R395, R396), switching a job out (R397–R404), restoring it
(R405), late packets (R406) and quiesce (R407). -/

namespace Sys2Proof.Machine

/-! ### The gang queue (R395, R396) -/

/-- Slots of the gang queue. -/
def gangSlotCount : Nat := 16

/-- The slot of a sequence number. -/
def State.gangSlot (s : State) (seq : Nat) : BitVec 1024 := tabGet 0 s.gangSlots (seq % gangSlotCount)

/-- Byte offset of a slot in the scheduler object. -/
def gangSlotOffset (seq : Nat) : Nat := 256 + 128 * (seq % gangSlotCount)

/-- A field of a slot. -/
def gangField (c : BitVec 1024) (lo n : Nat) : Nat := fieldOf c lo n

/-- Replace a field of a slot. -/
def putField (c : BitVec 1024) (lo n v : Nat) : BitVec 1024 :=
  (c &&& ~~~(BitVec.ofNat 1024 ((2 ^ n - 1) <<< lo))) ||| BitVec.ofNat 1024 ((v % 2 ^ n) <<< lo)

/-- STATUS, NREC and TEND of the command at HEAD are written, and HEAD passes it. -/
def State.closeGang (s : State) (status nrec : Nat) : State :=
  let c := putField (putField (putField (s.gangSlot s.gangHead) 256 8 status) 264 16 nrec) 320 64 s.ptime.toNat
  { s with gangSlots := tabSet 0 s.gangSlots (s.gangHead % gangSlotCount) c, gangHead := s.gangHead + 1, gang := none }

/-- The command of a slot. -/
def Gang.ofSlot (seq : Nat) (c : BitVec 1024) : Gang :=
  { seq := seq, op := gangField c 0 2, job := gangField c 16 16, gseq := gangField c 32 32, start := c.extractLsb' 64 64
    gran := c.extractLsb' 128 64, spmap := c.extractLsb' 192 24, spen := c.getLsbD 216, began := false, nrec := 0 }

/-- Bytes of a granary image (R401). -/
def granaryBytes : Nat := 2461696

/-- Base and bytes of the module's granary region (R22). -/
def State.granary (s : State) : Nat × Nat := (saveBase + tabGet 0 s.carves 0, tabGet 0 s.carves 1)

/-- The context in whose object space a job's granary pointer is resolved. -/
def State.gangCtx (s : State) (job : Nat) : Nat := (s.jobCtx job).getD s.errLogCtx

/-- An address lies in the module's granary region. -/
def State.inGranary (s : State) (pa : Nat) : Bool :=
  paModule pa == s.moduleId.toNat && s.granary.1 ≤ paLocal pa && paLocal pa < s.granary.1 + s.granary.2

/-- GRAN names an image that lies wholly in the region. -/
def State.granaryOk (s : State) (x : Nat) (p : Word64) : Bool × State :=
  if ptrTag p ≠ 1 ∨ ptrOff p % 4096 ≠ 0 then (false, s)
  else
    (List.range (granaryBytes / 4096)).foldl (fun (acc : Bool × State) i =>
      if !acc.1 then acc
      else
        match acc.2.sysPort schedCore x (ptrWithOff p (ptrOff p + 4096 * i)) with
        | .error _ => (false, acc.2)
        | .ok (t, s) => (s.inGranary t.pa && s.inGranary (t.pa + 4095), s)) (true, s)

/-- Read tier-2 bytes at a tensor pointer on the module's own behalf. -/
def State.tierRead (s : State) (x : Nat) (p : Word64) (n : Nat) : List Byte × State :=
  (linePieces (ptrOff p) n).foldl (fun (acc : List Byte × State) e =>
    match acc.2.sysPort schedCore x (ptrWithOff p (ptrOff p + e.1)) with
    | .error _ => (acc.1 ++ List.replicate e.2 0, acc.2)
    | .ok (t, s) =>
      match s.ctlRead (paLine t.pa) with
      | .ok d => (acc.1 ++ lineBytes d (t.pa % 128) e.2, s)
      | .error _ => (acc.1 ++ List.replicate e.2 0, s)) ([], s)

/-- GSEQ with which a job was switched out of this module. -/
def State.sweptAs (s : State) (job : Nat) : Option Nat :=
  (((List.range routerCount).flatMap (fun r => (s.router r).sweeps)).find? (fun w => w.job = job)).map Sweep.gseq

/-- The image header names this module, the job and the GSEQ of its switch out. -/
def State.headerOk (s : State) (g : Gang) : Bool × State :=
  let (h, s) := s.tierRead (s.gangCtx g.job) g.gran 16
  (leNat (h.take 2) = g.job ∧ leNat ((h.drop 4).take 4) = (s.sweptAs g.job).getD g.gseq ∧ leNat ((h.drop 8).take 1) = s.moduleId.toNat, s)

/-- A span map names one router for two spans. -/
def mapRepeats (m : BitVec 24) : Bool :=
  let rs := (List.range 8).map (fun i => fieldOf m (3 * i) 3)
  rs.eraseDups.length != 8

/-- A command fails a check of R396. -/
def State.gangRefused (s : State) (g : Gang) (c : BitVec 1024) : Bool × State :=
  if g.op = 3 ∨ gangField c 2 14 ≠ 0 ∨ gangField c 217 39 ≠ 0 ∨ gangField c 312 8 ≠ 0 ∨ gangField c 384 640 ≠ 0 then (true, s)
  else if (g.op ≠ 2 ∧ g.job = 0) ∨ (g.op = 2 ∧ g.job ≠ 0) then (true, s)
  else if g.op = 2 then (false, s)
  else
    match s.granaryOk (s.gangCtx g.job) g.gran with
    | (false, s) => (true, s)
    | (true, s) =>
      let (ok, s) := if g.op = 1 then s.headerOk g else (true, s)
      (!ok || (g.spen && mapRepeats g.spmap), s)

/-- The next command is checked (R396): accepted, or refused with a record in the module error log. -/
def State.checkGang (s : State) (op : Nat → Bool) : State :=
  if s.gang.isSome ∨ s.gangTail ≤ s.gangHead then s
  else
    let c := s.gangSlot s.gangHead
    let g := Gang.ofSlot s.gangHead c
    if !op g.op then s
    else
      match s.gangRefused g c with
      | (true, s) =>
        (s.logModule ⟨16, 0, 0, 0, false, 0, 0, schedCore, BitVec.ofNat 64 (gangSlotOffset g.seq), 0, 0, 0⟩).closeGang 2 0
      | (false, s) => { s with gang := some g }

/-- GANG_SWITCH_OUT (R395–R397): an OP 0 command, or one of no OP, is checked. -/
def execGangSwitchOut (s : State) : Host.Outcome State Fault Refusal := .next (s.checkGang (fun o => o == 0 || o == 3))

/-- GANG_QUIESCE (R396, R407): an OP 2 command is checked. -/
def execGangQuiesce (s : State) : Host.Outcome State Fault Refusal := .next (s.checkGang (fun o => o == 2))

/-! ### Starting (R397, R398) -/

/-- A marker (R398). -/
def marker (module peer : Nat) (c : Chan) (job gseq : Nat) : BitVec 512 :=
  (packetOf module ⟨peer, c, 1, BitVec.ofNat 6 markerOpc, job, 0, gseq, 0, 0⟩ []).header

/-- Channels of a link, the management channel first. -/
def markerChans : List Chan := [6, 0, 1, 2, 3, 4, 5]

/-- A port sends its markers behind what its channels have queued. -/
def Port.sendMarkers (q : Port) (module job gseq : Nat) : Port :=
  if q.st ≠ 2 then q
  else ({ q with wait := q.wait ++ markerChans.map (fun c => (c, marker module q.peer c job gseq)) } : Port).sendWaiting

/-- A router starts its sweep. Its own injection has stopped and its memory controllers have answered what reached them,
so input 9 is closed; a port that is not up is closed at once (R400). -/
def State.startSweep (s : State) (r job gseq : Nat) (bare : Bool) : State :=
  let x := s.router r
  match x.sweeps.find? (fun w => w.job = job ∧ w.gseq = gseq) with
  | some _ =>
    s.setRouter r { x with sweeps := x.sweeps.map (fun w => if w.job = job ∧ w.gseq = gseq then { w with bare := w.bare && bare } else w) }
  | none =>
    let down := (List.range portCount).filter (fun p => (x.port p).st != 2)
    let w : Sweep := ⟨job, gseq, s.time, bare, (ownInput :: down).flatMap (fun p => lowerChans.map (fun c => 3 * p + c)), [], [], false, []⟩
    let x := { x with sweeps := x.sweeps.filter (fun v => v.job != job) ++ [w] }
    s.setRouter r ((List.range portCount).foldl (fun x p => x.setPort p ((x.port p).sendMarkers s.moduleId.toNat job gseq)) x)

/-- Contexts of a job; every one for a quiesce. -/
def State.gangContexts (s : State) (job : Nat) : List Nat :=
  (List.range 64).filter (fun x => (s.ctx x).valid && (job == 0 || (s.ctx x).job.toNat == job))

/-- Deadlines of a context's requests become what is left of them (R403). -/
def State.freeze (s : State) (x : Nat) : State :=
  { s with lower := s.lower.map (fun r => if r.2.ctx = x ∧ r.2.sent.isSome then (r.1, { r.2 with deadline := r.2.deadline - s.ptime }) else r) }

/-- Deadlines begin again from now (R403). -/
def State.thaw (s : State) (x : Nat) : State :=
  { s with lower := s.lower.map (fun r => if r.2.ctx = x ∧ r.2.sent.isSome then (r.1, { r.2 with deadline := r.2.deadline + s.ptime }) else r) }

/-- Steps of a context that have not formed their results end, and its held values are discarded; a step whose results are
formed in this cycle completes first (R394, R408). -/
def State.endSteps (s : State) (x : Nat) : State :=
  let mine (s : State) := s.allSteps.filter (fun y => y.2.2.ctx == x)
  let s := ((mine s).filter (fun y => y.2.2.ready)).foldl (fun s y => nextOr s (execStepResultsFormed y.1 y.2.1 s)) s
  let s := (mine s).foldl (fun s y => s.abortStep y.1 y.2.1 true) s
  ({ s with chains := s.chains.map (fun c => if c.1 / 256 = x then (c.1, { c.2 with held := none }) else c) } : State).wakeEngines

/-- The command starts on this module. -/
def State.startGang (s : State) (g : Gang) : State :=
  let xs := s.gangContexts g.job
  let s := if g.op = 2 then { s with quiet := true }
    else
      let s : State := { s with stopped := if s.stopped.contains g.job then s.stopped else g.job :: s.stopped }
      xs.foldl (fun s x => (s.freeze x).endSteps x) s
  let s := xs.foldl (fun s x => s.preempt x) s
  let s := (List.range routerCount).foldl (fun s r => s.startSweep r g.job g.gseq false) s
  { s with gang := some { g with began := true } }

/-- GANG_START (R397, R407): at START, or as soon as the command is checked where START has passed. -/
def execGangStart (s : State) : Host.Outcome State Fault Refusal :=
  .next (match s.gang with
    | none => s
    | some g => if g.began ∨ g.op = 1 ∨ s.ptime.toNat < g.start.toNat then s else s.startGang g)

/-- MARKER_ARRIVAL (R397, R398, R400): the first marker starts a router; each closes its channel. -/
def execMarkerArrival (r p : Nat) (c : Chan) (header : BitVec 512) (s : State) : Host.Outcome State Fault Refusal :=
  let job := fieldOf header 40 16
  let gseq := fieldOf header 64 32
  .next (if routerCount ≤ r ∨ portCount ≤ p ∨ 7 ≤ c then s
    else
      let known := (s.router r).sweeps.any (fun w => w.job == job && w.gseq == gseq)
      let s := if known then s
        else
          match s.gang with
          | some g => if g.job = job ∧ g.gseq = gseq ∧ !g.began ∧ g.op ≠ 1 then s.startGang g else s.startSweep r job gseq true
          | none => s.startSweep r job gseq true
      let x := s.router r
      s.setRouter r { x with sweeps := x.sweeps.map (fun w =>
        if w.job = job ∧ w.gseq = gseq then
          (if c < 3 then { w with closed := if w.closed.contains (3 * p + c) then w.closed else (3 * p + c) :: w.closed }
           else { w with markers := if w.markers.contains (7 * p + c) then w.markers else (7 * p + c) :: w.markers })
        else w) })

/-! ### Sweeping (R399–R402) -/

/-- The span under which a router sweeps a packet: the packet's, where the router carries it. -/
def State.sweepSpan (s : State) (r : Nat) (p : Packet) : Nat :=
  let mine := (List.range 8).filter (fun i => s.spanRouter i = r)
  if mine.contains (spanOf (p.field 64 56)) then spanOf (p.field 64 56) else mine.headD r

/-- Offset of record k of a slot area (R401). -/
def recordOffset (span input c k : Nat) : Nat := 4096 + 307200 * span + 10240 * (3 * input + c) + 320 * k

/-- A record (R402). -/
def granaryRecord (p : Packet) (span input c k gseq : Nat) : List Byte :=
  let h := p.header.toNat % 2 ^ 384 + 2 ^ 384 + span * 2 ^ 385 + input * 2 ^ 388 + c * 2 ^ 392 + k * 2 ^ 394 + gseq * 2 ^ 416
  let body := p.payload.take 256
  leBytes 64 h ++ body ++ List.replicate (256 - body.length) 0

/-- The first packet of a job leaves an input buffer. -/
def Router.takeJob (x : Router) (input : Nat) (c : Chan) (job : Nat) : Router :=
  let ps := x.input input c
  x.setInput input c (ps.takeWhile (fun p => p.job != job) ++ (ps.dropWhile (fun p => p.job != job)).tail)

/-- SWEEP_PACKET (R399, R401, R402): the first packet of the switched job on an input channel becomes a record; step data
are discarded. -/
def execSweepPacket (r input : Nat) (c : Chan) (s : State) : Host.Outcome State Fault Refusal :=
  .next (match s.gang with
    | none => s
    | some g =>
      if routerCount ≤ r ∨ ownInput < input ∨ 3 ≤ c ∨ g.op ≠ 0 ∨ !g.began then s
      else
        let x := s.router r
        match (x.input input c).find? (fun p => p.job = g.job), x.sweeps.find? (fun w => w.job = g.job) with
        | some p, some w =>
          let s := (s.setRouter r (x.takeJob input c g.job)).returnCredits r input c p.flits
          if p.does = some 2 then s
          else
            let span := s.sweepSpan r p
            let key := 30 * span + 3 * input + c
            let k := tabGet 0 w.counts key
            let at_ := ptrWithOff g.gran (ptrOff g.gran + recordOffset span input c k)
            let s := s.tierWrite (s.gangCtx g.job) at_ State.inGranary (granaryRecord p span input c k g.gseq)
            let x := s.router r
            let s := s.setRouter r { x with sweeps := x.sweeps.map (fun v =>
              if v.job = g.job then { v with counts := tabSet 0 v.counts key (k + 1) } else v) }
            { s with gang := some { g with nrec := g.nrec + 1 } }
        | _, _ => s)

/-- SWEEP_TIMEOUT (R400): a channel still open 1 ms after its router's start closes. -/
def execSweepTimeout (r input : Nat) (c : Chan) (s : State) : Host.Outcome State Fault Refusal :=
  let x := s.router r
  .next (if routerCount ≤ r ∨ ownInput < input ∨ 3 ≤ c then s
    else s.setRouter r { x with sweeps := x.sweeps.map (fun w =>
      if linkLimit ≤ s.time - w.start ∧ !w.closed.contains (3 * input + c) then { w with closed := (3 * input + c) :: w.closed, limited := true } else w) })

/-! ### Closing (R404, R407) -/

/-- Every channel of a router's sweep has closed and every upper-deck marker has arrived, or its port is down (R404). -/
def Router.sweepClosed (x : Router) (w : Sweep) : Bool :=
  (List.range 30).all (fun k => w.closed.contains k) &&
    (List.range portCount).all (fun p => (x.port p).st != 2 || [3, 4, 5].all (fun c => w.markers.contains (7 * p + c)))

/-- No lower-deck packet of a job, or of any for job 0, is left in a router's buffers. -/
def Router.sweptClean (x : Router) (job : Nat) : Bool :=
  (List.range 10).all (fun i => lowerChans.all (fun c => (x.input i c).all (fun p => job != 0 && p.job != job)))

/-- Counts of an image header, in area order. -/
def State.imageCounts (s : State) (job : Nat) : List Byte :=
  (List.range 240).map (fun k => BitVec.ofNat 8
    (((List.range routerCount).flatMap (fun r => ((s.router r).sweeps.filter (fun w => w.job = job)).map (fun w => tabGet 0 w.counts k))).foldl (· + ·) 0))

/-- The image header (R401). -/
def State.imageHeader (s : State) (g : Gang) : List Byte :=
  leBytes 4 g.job ++ leBytes 4 g.gseq ++ leBytes 8 s.moduleId.toNat ++ s.imageCounts g.job ++ List.replicate 3840 0

/-- SWITCH_OUT_DONE (R404, R407): everything is swept and saved, or has drained; the span map is applied, and STATUS is
written. -/
def execSwitchOutDone (s : State) : Host.Outcome State Fault Refusal :=
  .next (match s.gang with
    | none => s
    | some g =>
      let sweeps := (List.range routerCount).map (fun r => (s.router r, (s.router r).sweeps.find? (fun w => w.job = g.job)))
      let closed := sweeps.all (fun e => match e.2 with
        | some w => e.1.sweepClosed w && e.1.sweptClean g.job
        | none => false)
      let saved := (s.gangContexts g.job).all (fun x => (s.ctx x).state == .saved)
      let sent := s.outbox.all (fun e => 3 ≤ e.2.1 || (g.job != 0 && e.2.2.job != g.job))
      if g.op = 1 ∨ !g.began ∨ !closed ∨ !saved ∨ !sent then s
      else
        let limited := sweeps.any (fun e => (e.2.map Sweep.limited).getD false)
        let s : State := { s with spmap := if g.spen then g.spmap else s.spmap }
        if g.op = 0 then
          (s.tierWrite (s.gangCtx g.job) g.gran State.inGranary (s.imageHeader g)).closeGang (if limited then 3 else 1) g.nrec
        else
          let s := (List.range routerCount).foldl (fun s r => s.setRouter r { s.router r with sweeps := (s.router r).sweeps.filter (fun w => w.job != 0) }) s
          { s with quiet := false }.closeGang (if limited then 3 else 1) 0)

/-! ### Late packets (R406) -/

/-- NLATE of the command that switched a job out counts one more. -/
def State.countLate (s : State) (job gseq : Nat) : State :=
  match (List.range gangSlotCount).find? (fun n =>
      let c := tabGet 0 s.gangSlots n
      gangField c 0 2 = 0 ∧ gangField c 16 16 = job ∧ gangField c 32 32 = gseq) with
  | none => s
  | some n =>
    let c := tabGet 0 s.gangSlots n
    { s with gangSlots := tabSet 0 s.gangSlots n (putField c 280 32 (gangField c 280 32 + 1)) }

/-- The first late packet of an input channel, and its sweep. -/
def Router.lateFirst (x : Router) (input : Nat) (c : Chan) : Option (Sweep × Packet) :=
  x.sweeps.findSome? (fun w => (tabGet [] w.late (inputKey input c)).head?.map (fun p => (w, p)))

/-- LATE_PACKET (R406): a packet of the switched job on a closed channel is refused. -/
def execLatePacket (r input : Nat) (c : Chan) (s : State) : Host.Outcome State Fault Refusal :=
  let x := s.router r
  .next (match x.lateFirst input c with
    | none => s
    | some (w, p) =>
      let s := s.setRouter r { x with sweeps := x.sweeps.map (fun v =>
        if v.job = w.job then { v with late := tabSet [] v.late (inputKey input c) (tabGet [] v.late (inputKey input c)).tail } else v) }
      (s.refusePacket r p 15).countLate w.job w.gseq)

/-! ### Restoring (R405) -/

/-- The packet of a record. -/
def recordPacket (bs : List Byte) : Packet :=
  let h := BitVec.ofNat 512 (leNat (bs.take 64) % 2 ^ 384)
  ⟨h, (bs.drop 64).take (fieldOf h 25 9)⟩

/-- Replay the records of one slot area. -/
def State.replayArea (s : State) (g : Gang) (r span input c n : Nat) : State :=
  (List.range n).foldl (fun s k =>
    let (bs, s) := s.tierRead (s.gangCtx g.job) (ptrWithOff g.gran (ptrOff g.gran + recordOffset span input c k)) 320
    let x := s.router r
    s.setRouter r (x.setInput input c (x.input input c ++ [recordPacket bs]))) s

/-- Replay the records of a span, in slot-area order; how many there were. -/
def State.replaySpan (s : State) (g : Gang) (counts : List Byte) (span : Nat) : State × Nat :=
  (List.range 30).foldl (fun (acc : State × Nat) k =>
    let n := (counts.getD (30 * span + k) 0).toNat
    (acc.1.replayArea g (acc.1.spanRouter span) span (k / 3) (k % 3) n, acc.2 + n)) (s, 0)

/-- A restore starts: contexts are requested, every router replays its records and opens the job's channels. -/
def State.startRestore (s : State) (g : Gang) : State :=
  let xs := (s.gangContexts g.job).filter (fun x => (s.ctx x).state == .saved)
  let s := xs.foldl (fun s x => (s.setCtx x { s.ctx x with rreq := true }).enqueue [.contextRestore x]) s
  let (h, s) := s.tierRead (s.gangCtx g.job) g.gran 256
  let (s, n) := (List.range 8).foldl (fun (acc : State × Nat) span =>
    let (s, m) := acc.1.replaySpan g (h.drop 16) span
    (s, acc.2 + m)) (s, 0)
  let s := (List.range routerCount).foldl (fun s r =>
    let x := s.router r
    let late := (x.sweeps.filter (fun w => w.job = g.job)).flatMap (fun w => w.late.flatMap (fun e => e.2.map (fun p => (w.gseq, p))))
    let s := s.setRouter r { x with sweeps := x.sweeps.filter (fun w => w.job != g.job) }
    late.foldl (fun s p => (s.refusePacket r p.2 15).countLate g.job p.1) s) s
  let s : State := { s with stopped := s.stopped.filter (· != g.job) }
  (xs.foldl State.thaw s).closeGang 1 n

/-- GANG_RESTORE (R396, R405): an OP 1 command is checked; at START the job is put back. -/
def execGangRestore (s : State) : Host.Outcome State Fault Refusal :=
  let s := s.checkGang (fun o => o == 1)
  .next (match s.gang with
    | some g => if g.op = 1 ∧ g.start.toNat ≤ s.ptime.toNat then s.startRestore g else s
    | none => s)

end Sys2Proof.Machine
end

