-- ==== Sys2Proof/Machine/Timing.lean ====
section
/-! DEFINITION. Sys2Proof/Machine/Timing.lean: how long a word holds its pipe, when its result may be read, and what a
taken transfer costs (R109, R127, R156, R194, R234, R240, R242). Figures in cycles are of the core's own clock (R451). -/

namespace Sys2Proof.Machine

/-! ### The next word of a record -/

/-- A record's next word, when it can be fetched and decoded. -/
def State.peekWord (s : State) (r : IssueRef) : Option Instr :=
  match s.fetchNext r with
  | .ok (i, _) => some i
  | .error _ => none

/-- GUARD of a word: bits [3:0] in formats I and J, [19:16] otherwise (R70). -/
def guardOf (i : Instr) : BitVec 4 :=
  match encode i with
  | none => 0
  | some w =>
    if [0x28, 0x29, 0x2A, 0x2B, 0x2C, 0x2D, 0x2E, 0x2F, 0x30, 0x31, 0x80, 0x81, 0x83, 0x86, 0x87, 0x88, 0x89, 0x8A, 0xF0, 0xF2].contains (opcodeOf w)
    then w.extractLsb' 0 4 else w.extractLsb' 16 4

/-! ### The figures of the entries -/

/-- s64 and u64. -/
def tyLong (t : BitVec 4) : Bool := t == 2 || t == 3
/-- s64, u64 and f64. -/
def tyWide (t : BitVec 4) : Bool := tyRegs t == 2

/-- Occupancy for both halves, and latency (0 for a word with no result of promised latency), of a word on a vector pipe. -/
def vectorTime (i : Instr) : Nat × Nat :=
  match i with
  | .iadd f | .iaddc f | .iadds f | .isub f | .isubb f | .isubs f | .iabs f | .ineg f | .imin f | .imax f | .iavg f | .icmp f
  | .isel f | .ipopc f | .iclz f | .ibrev f | .ibfx f | .ibfi f | .bitAnd f | .bitOr f | .bitXor f | .bitNot f | .andn f
  | .shl f | .shr f | .sra f | .rotl f | .fshl f | .perm f => if tyLong f.ty then (4, 6) else (2, 4)
  | .iaddi f | .andi f | .ori f | .xori f | .shli f | .shri f | .srai f | .movi f | .icmpi f => if tyLong f.ty then (4, 6) else (2, 4)
  | .lea _ => (4, 6)
  | .imul f | .imulh f | .imad f => if tyLong f.ty then (8, 12) else (2, 6)
  | .imuli f => if tyLong f.ty then (8, 12) else (2, 6)
  | .imadw _ | .idot4 _ | .idot2 _ => (2, 6)
  | .fadd _ | .fsub _ | .fmul _ | .fmin _ | .fmax _ | .fminm _ | .fmaxm _ | .fcmp _ | .fclass _ | .frnd _ | .fscale _ | .ffrac _ => (2, 4)
  | .ffma _ | .fdot2 _ => (2, 5)
  | .frcp _ | .frsq _ | .fsqrt _ => (8, 16)
  | .fdiv _ => (16, 24)
  | .fexp2 _ | .flog2 _ | .fsin _ | .fcos _ | .ftanh _ | .fsigm _ => (8, 18)
  | .cvt f => if tyWide f.ty || tyWide (fromType f.mod) then (4, 6) else (2, 4)
  | .cvtsr _ | .pack _ | .unpk _ | .dqmx _ => (2, 4)
  | .qmx _ => (4, 10)
  | .mov _ | .movs _ | .movx _ | .vote _ | .plop _ => (2, 4)
  | .shfl _ | .matchLanes _ => (2, 6)
  | .fold f => if f.ty = 8 then (4, 16) else (4, 10)
  | .lds f | .sts f => if f.size = 6 then (4, 0) else (2, 0)
  | .gcpy _ | .scpy _ | .spawn _ | .winnow _ => (4, 0)
  | _ => (2, 0)

/-- Latency of a word on the uniform unit. -/
def uniformLatency (i : Instr) : Nat :=
  match i with
  | .imul _ | .imulh _ | .imad _ | .imadw _ | .idot4 _ | .idot2 _ | .imuli _ => 4
  | .frcp _ | .frsq _ | .fsqrt _ | .fdiv _ | .fexp2 _ | .flog2 _ | .fsin _ | .fcos _ | .ftanh _ | .fsigm _ => 20
  | .fadd _ | .fsub _ | .fmul _ | .fmin _ | .fmax _ | .fminm _ | .fmaxm _ | .fcmp _ | .fclass _ | .frnd _ | .fscale _ | .ffrac _
  | .ffma _ | .fdot2 _ | .cvt _ | .cvtsr _ | .pack _ | .unpk _ | .dqmx _ => 4
  | _ => if (vectorTime i).2 = 0 then 0 else 2

/-- A word bound for the uniform unit (R29, R131, R158): every source is uniform, and it writes an s register or a special
register, or makes a memory access. Words of the control, barrier, queue and engine families hold a pipe as their own
entries say (R156, R194, R234). DEDUCED (log 180). -/
def isUniformWord (i : Instr) : Bool :=
  match i with
  | .vote _ | .matchLanes _ | .fold _ | .qmx _ | .call _ | .callx _ | .loop _ | .loopi _ | .spawn _ | .winnow _
  | .binit _ | .bexp _ | .barv _ | .bwait _ | .btest _ | .tbar _ | .gbar _ | .qinit _ | .qpush _ | .qpop _ | .qallow _
  | .cvinit _ | .acalloc _ | .acfree _ | .mma _ | .mmasp _ | .mmv _ | .mldt _ | .mzero _ | .mepi _ | .tcpy _ | .tcpo _
  | .gcpy _ | .scpy _ | .wcpy _ | .drain _ | .cstep _ | .cabort _ | .npost _ | .launch _ | .capsub _ => false
  | _ =>
    match shapeOf i with
    | none => false
    | some x => x.srcs.all (fun r => isUni r.code) &&
        (x.dsts.any (fun d => isS d.code) || (memOpOf i).isSome || (match i with | .movx _ => true | _ => false))

/-! ### Words that wait for the group's earlier accesses -/

/-- The word issues once the group's earlier accesses have been performed (R168–R190). -/
def drainWord : Instr → Bool
  | .cctl _ | .fence _ | .waita _ | .binit _ | .bexp _ | .barv _ | .bwait _ | .btest _ | .tbar _ | .gbar _ | .qinit _ | .qpush _
  | .qpop _ | .qallow _ | .launch _ => true
  | _ => false

/-- A word that signs a convergence register: the operation that its round accepts reads operands after it (R199, R283). -/
def signWord : Instr → Bool
  | .mma _ | .mmasp _ | .mmv _ | .mldt _ | .mzero _ | .mepi _ => true
  | .tcpy f | .tcpo f | .wcpy f | .drain f => f.mod.getLsbD 11
  | _ => false

/-- An earlier access or fence of the group holds the word back: it waits for all of them (R168–R190), comes after an acquire
or a fence (R282), or signs after writes of the scratchpad that are not performed (R283). -/
def Core.holdsBack (k : Core) (slot : Nat) (g : Group) (q : PathRec) (i : Instr) : Bool :=
  (drainWord i && q.answer.isNone && k.accessPending slot) || (engineWord i && k.acquirePending slot) || g.fenceHolds i ||
    (signWord i && k.localPending slot)

/-! ### Registers read and written (R240) -/

/-- Codes of the predicates that a word reads beside its register sources: its guard, a carry in, a selector, and those of
PLOP. -/
def predReads (i : Instr) : List Nat :=
  let guard := (guardOf i).toNat % 8
  (if guard = 0 then [] else [0xF0 + guard]) ++
    (match i with
      | .iaddc f | .isubb f | .isel f => [f.c.toNat]
      | .plop f => [f.a.toNat, f.b.toNat]
      | _ => [])

/-- Code of a special register as a source or a destination. -/
def specialCode (i : BitVec 8) : Nat := 0x100 + i.toNat

/-- Codes that a word reads. -/
def readCodes (i : Instr) : List Nat :=
  predReads i ++ ((shapeOf i).map (fun x => x.srcs.flatMap (fun r => if isP r.code then [r.code.toNat] else r.regs))).getD [] ++
    (match i with
      | .movs f => [specialCode f.b]
      | _ => [])

/-- Codes that a word's result reaches; p0 keeps no result. -/
def writeCodes (i : Instr) : List Nat :=
  (((shapeOf i).map (fun x => x.dsts.flatMap (fun d => if isP d.code then [d.code.toNat] else d.regs))).getD [] ++
    (match i with
      | .iaddc f | .isubb f | .iadds f | .isubs f => [0xF0 + fieldOf f.mod 7 3]
      | .icmpi f => [0xF0 + fieldOf f.d 0 3]
      | .plop f => [f.d.toNat]
      | .movx f => [specialCode f.d]
      | _ => [])).filter (fun c => c != 0xF0)

/-- A result may be read by some lanes at a cycle. -/
def Group.readable (g : Group) (c : Nat) (lanes : LaneMask) (now : Nat) : Bool :=
  (tabGet [] g.due c).all (fun e => decide (e.2 ≤ now) || e.1 &&& lanes == 0)

/-- Every earlier result that a word reads in its lanes has reached its latency. -/
def Group.settled (g : Group) (i : Instr) (lanes : LaneMask) (now : Nat) : Bool := (readCodes i).all (fun c => g.readable c lanes now)

/-- Lanes that a result in a register concerns: every lane where the register is the group's, not a lane's. -/
def resultLanes (c : Nat) (lanes : LaneMask) : LaneMask := if c < 0xC0 ∨ (0xF0 ≤ c ∧ c < 0x100) then lanes else BitVec.allOnes 32

/-- The result that a word leaves in its lanes may be read from cycle `c` on. What may be read by now is forgotten. -/
def Group.notBefore (g : Group) (i : Instr) (lanes : LaneMask) (now c : Nat) : Group :=
  { g with due := (writeCodes i).foldl (fun t r =>
      tabSet [] t r ((resultLanes r lanes, c) :: (tabGet [] t r).filter (fun e => now < e.2))) g.due }

/-! ### Accesses to memory (R194) -/

/-- Halves of a lane mask that hold a lane. -/
def halvesOf (m : LaneMask) : Nat := (if m &&& 0xFFFF = 0 then 0 else 1) + (if m >>> 16 = 0 then 0 else 1)

/-- Address that a lane of an access names: its offset in the scratchpad or its object (R158). -/
def laneAddr (g : Group) (o : MemOp) (a : BitVec 8) (delta : Int) (lane : Nat) : Word64 :=
  (formAddress (o.sp = .scratch) (g.read a (if o.sp = .scratch then 1 else 2) lane) delta).1

/-- Most distinct words that addresses name in one of the 32 banks of the scratchpad. -/
def busiestBank (bytes : Nat) (as : List Nat) : Nat :=
  let words := (as.flatMap (fun a => (List.range (ceilDiv (a % 4 + bytes) 4)).map (fun k => a / 4 + k))).eraseDups
  ((List.range 32).map (fun b => (words.filter (fun w => w % 32 = b)).length)).foldl max 0

/-- Distinct lines that addresses name: tag, object and line. -/
def distinctLines (as : List Word64) : Nat := ((as.map (fun (a : Word64) => (a >>> 7 : Word64))).eraseDups).length

/-- The base field of a memory word, and what it adds to it. -/
def baseOf (i : Instr) : Option (BitVec 8 × Int) :=
  match i with
  | .ldc f | .stc f | .lds f | .sts f | .ldm f | .stm f | .ldw f | .stw f => some (f.a, f.off.toInt * (sizeBytes f.size : Int))
  | .atc f | .ats f | .att f => some (f.a, f.off.toInt * (atomBytes f : Int))
  | .slinit f => some (f.a, f.off.toInt * 128)
  | _ => none

/-- Cycles for which an access holds its pipe: bank by bank in the scratchpad, line by line otherwise. -/
def State.memTime (s : State) (e : Iss) (i : Instr) (o : MemOp) (a : BitVec 8) (delta : Int) : Nat :=
  let half (p : Nat → Bool) : List Word64 := ((lanesOf e.act).filter p).map (fun l => laneAddr e.g o a delta l)
  let lo := half (fun l => l < 16)
  let hi := half (fun l => 16 ≤ l)
  match o.sp with
  | .scratch =>
    if o.bytes = 16 then 2 * halvesOf e.act
    else halvesOf e.act + (busiestBank o.bytes (lo.map ptrOff) - 1) + (busiestBank o.bytes (hi.map ptrOff) - 1)
  | _ =>
    if (accessLanes i e.act).all (fun l => s.isLocal e o (laneAddr e.g o a delta l)) then
      halvesOf e.act + (distinctLines lo - 1) + (distinctLines hi - 1)
    else 2 * distinctLines (lo ++ hi)

/-! ### A word that is chosen -/

/-- Cycles for which a word holds its pipe (R242): one for each half with an Active lane, times its entry's figure; NOP for
each half with a thread; a word on the uniform unit for one. -/
def State.pipeTime (s : State) (r : IssueRef) (i : Instr) : Nat :=
  if isUniformWord i then 1
  else
    match ({ s with cur := some r } : State).issuer (guardOf i) with
    | none => 1
    | some e =>
      match i, memOpOf i, baseOf i with
      | .nop, _, _ => halvesOf e.q.lanes
      | _, some o, some (a, d) => s.memTime e i o a d
      | _, _, _ => (vectorTime i).1 / 2 * halvesOf e.act

/-- A chosen word takes a pipe of its partition: pipe and record are free when it has left it, and its result may be read
once its latency has passed. -/
def State.occupy (s : State) (k : Core) (part pipe : Nat) (r : IssueRef) (now : Nat) : Core :=
  match s.peekWord r, tabFind k.groups r.slot with
  | some i, some g =>
    let free := now + max 1 (s.pipeTime r i)
    let act := (g.prec r.prec).lanes &&& g.guardMask (guardOf i)
    let lat := if isUniformWord i then uniformLatency i else (vectorTime i).2
    let g := g.setPrec r.prec { g.prec r.prec with ready := max free (g.prec r.prec).ready }
    { k with
      pipes := tabSet 0 k.pipes (2 * part + pipe) free
      groups := tabPut k.groups r.slot (if lat = 0 ∨ act = 0 then g else g.notBefore i act now (now + lat)) }
  | _, _ => k

/-! ### Transfers (R156) -/

/-- Words that transfer control, but for loops; whether the target comes from a register. -/
def transferWord : Instr → Option Bool
  | .br _ | .brd _ | .call _ | .lbrk _ => some false
  | .brx _ | .callx _ | .ret _ => some true
  | _ => none

/-- Cycles from a taken transfer to the target's first word: 4 where the FETCH hint of its block covers the taken target. -/
def State.transferTime (s : State) (core x : Nat) (block : Word64) (fromReg : Bool) : Nat :=
  match s.fetchWord core x block with
  | (.word w, _) => if !fromReg && w.getLsbD 1 then 4 else 10
  | _ => 10

/-- Threads of a path that stand at the target of a transfer it took: all of them when the transfer was uniform, else those
of a taken half, which has not joined the fall-through half. -/
def PathRec.took (q : PathRec) (act : LaneMask) (p : PathRec) : Bool :=
  p.lanes != 0 && p.trap == q.trap && p.place.word == p.place.block &&
    (if p.lanes = q.lanes then act == q.lanes else p.lanes &&& act == p.lanes && { p.place with stack := q.place.stack } != q.place.after)

/-- After a word of a record has been executed: threads of it that stand at the target of a taken transfer wait for the
target's first word. `q` is the record as it issued. -/
def State.bubble (t : State) (r : IssueRef) (x : Nat) (q : PathRec) (act : LaneMask) (i : Instr) : State :=
  match transferWord i with
  | none => t
  | some fromReg =>
    let due := t.clockOf r.core + t.transferTime r.core x q.place.block fromReg
    t.onGroup r.core r.slot (fun g =>
      { g with recs := g.recs.map (fun p => (p.1, if q.took act p.2 then { p.2 with ready := max due p.2.ready } else p.2)) })

/-- Splits of a group are ranked once every path of it has issued its word of this cycle, and their taken halves wait for the
target's first word (R155, R156). -/
def State.finishSplits (t : State) (core slot : Nat) : State :=
  match t.group core slot with
  | none => t
  | some g =>
    if g.splits.isEmpty ∨ t.groupIssues core slot then t
    else g.splits.foldl (fun t x => t.bubble ⟨core, slot, x.prec⟩ g.ctx x.q x.act x.instr) (t.rankSplits core slot)

/-- After a word that record r issued in state s: what a transfer that it took costs, and the splits of the cycle. -/
def State.afterWord (t s : State) (r : IssueRef) (i : Instr) : State :=
  match s.issuer (guardOf i) with
  | none => t.finishSplits r.core r.slot
  | some e => (t.bubble r e.g.ctx e.q e.act i).finishSplits r.core r.slot

end Sys2Proof.Machine
end

