-- ==== Sys2Proof/Machine/Group.lean ====
section
/-! DEFINITION. Sys2Proof/Machine/Group.lean: wakes (R254, R255), reconvergence (R244), bins that close and the groups
launched from them (R249–R251), the end of groups and teams (R151, R236), and the starvation guard (R241). -/

namespace Sys2Proof.Machine

/-! ### Wakes (R254–R256) -/

/-- A woken record runs on at the word it parked on. One that waited for barn room carries a mark until that word is done,
and so keeps its place in the order of R254. It may issue from a cycle on (R194, R254). -/
def PathRec.awake (q : PathRec) (due : Nat) : PathRec :=
  { q with
    ready := max due q.ready
    state := .running
    reason := 0
    obj := 0
    waitPtrs := []
    woken := false
    answer := if q.reason = 5 then some 0 else q.answer }

/-- Cycles from the event that wakes a record to the first in which it may issue (R194, R254). -/
def wakeTime : Nat := 4

/-- Accesses that the lanes of a record hold at the memory port are made again, with the descriptor of then. -/
def State.releaseHeld (s : State) (core slot : Nat) (lanes : LaneMask) : State :=
  let mine (a : Nat × Access) : Bool := a.2.slot == slot && a.2.held && a.2.lanes.any (fun l => lanes.getLsbD l.lane)
  let ids := ((s.core core).accs.filter mine).map Prod.fst
  (s.onCore core (fun k => { k with accs := k.accs.map (fun a => if mine a then (a.1, { a.2 with
      held := false, lanes := a.2.lanes.map (fun l => { l with desc := none }) }) else a) })).enqueue
    (ids.map (fun i => Instr.longLatencyResult core i))

/-- SUBGROUP_WAKE (R255): a detached sub-group becomes a path, or is ranked with the two paths below either of the same
count; the lowest of the three is spilled. -/
def State.wakeSubgroup (s : State) (core slot i : Nat) (g : Group) : State :=
  let q := (g.prec i).awake (s.clockOf core + wakeTime)
  match [0, 1].find? (fun j => (g.prec j).state = .free) with
  | some j => (s.onGroup core slot (fun g => (g.setPrec i PathRec.free).setPrec j { q with answer := none })).settle core slot
  | none =>
    let freed := s.onPrec core slot i (fun _ => PathRec.free)
    match freed.arrange core slot (g.pathsBut [i] ++ [⟨{ q with answer := none }, 2, 0, none, 0⟩]) with
    | .ok t => t
    | .error .stall => s
    | .error w => s.spillWait core slot i w

/-- A wake reaches a record: PARK_WAKE has its effect. A write reaches a WAITA record with no further mark. -/
def PathRec.wakes (q : PathRec) : Bool := q.state == .parked && (q.woken || q.reason == 4)

/-- PARK_WAKE (R254, R255). A record of a context that is away, or that is leaving its cores, stays parked as it has stopped
(R338): it is woken when its context is restored. -/
def execParkWake (core slot i : Nat) (s : State) : Host.Outcome State Fault Refusal :=
  .next (match s.group core slot with
    | none => s
    | some g =>
      let q := g.prec i
      if !q.wakes then s
      else if 512 ≤ core ∨ (s.ctx g.ctx).state ≠ .resident then s.onPrec core slot i (fun q => { q with woken := true })
      else
        let s := if q.reason = 6 ∨ q.reason = 11 then s.releaseHeld core slot q.lanes else s
        if i < 2 then (s.onPrec core slot i (fun q => q.awake (s.clockOf core + wakeTime))).settle core slot
        else s.wakeSubgroup core slot i g)

/-! ### Reconvergence (R244) -/

/-- Two records that wait at one header merge: call depths and loop frames are equal. -/
def PathRec.merges (a b : PathRec) : Bool := a.place.depth == b.place.depth && a.place.frames == b.place.frames

/-- Pending deliveries of a record, of the threads it holds: others have taken the fault, or hold it elsewhere (R276). -/
def PathRec.ownFaults (q : PathRec) : List MatFault :=
  (q.matFaults.map (fun m => { m with lanes := m.lanes &&& q.lanes })).filter (fun m => m.lanes != 0)

/-- Put a delivery among others in the order of operations, with the threads of its own operation. -/
def joinFault (m : MatFault) : List MatFault → List MatFault
  | [] => [m]
  | n :: ns =>
    if n.order = m.order ∧ n.log = m.log then { n with lanes := n.lanes ||| m.lanes } :: ns
    else if m.order < n.order then m :: n :: ns else n :: joinFault m ns

/-- The pending deliveries of two records that merge. -/
def joinFaults (a b : List MatFault) : List MatFault := b.foldl (fun l m => joinFault m l) a

/-- The record into which two merge, H popped. Where their trap-return records, or the entries below H, differ, those of the
lower remain: DESIGN CHOICE (log 75). -/
def PathRec.merge (a b : PathRec) : PathRec :=
  ({ a with lanes := a.lanes ||| b.lanes, matFaults := joinFaults a.ownFaults b.ownFaults, ready := max a.ready b.ready } : PathRec).popHeader

/-- RECONV_MERGE (R244): two records waiting at one header merge into the lower, or each pops it and runs on. -/
def execReconvMerge (core slot : Nat) (s : State) : Host.Outcome State Fault Refusal :=
  .next (match s.group core slot with
    | none => s
    | some g =>
      match g.mergePair with
      | none => s
      | some (i, j) =>
        let a := g.prec i
        let b := g.prec j
        let f (g : Group) : Group :=
          if a.merges b then (g.setPrec i (a.merge b)).setPrec j PathRec.free else (g.setPrec i a.popHeader).setPrec j b.popHeader
        (s.onGroup core slot f).settle core slot)

/-- RECONV_LONE_RESUME (R244). -/
def execReconvLoneResume (core slot i : Nat) (s : State) : Host.Outcome State Fault Refusal :=
  .next (match s.group core slot with
    | none => s
    | some g => if g.lone i then (s.onPrec core slot i PathRec.popHeader).settle core slot else s)

/-! ### Bins and the launch list (R249–R251) -/

/-- BIN_TIMER_EXPIRY (R249). -/
def execBinTimerExpiry (core bin : Nat) (s : State) : Host.Outcome State Fault Refusal :=
  .next (match tabFind (s.core core).bins bin with
    | none => s
    | some b => if b.due ≤ s.clockOf core then (s.onCore core (fun k => k.closeBin bin)).enqueue [.binGroupLaunch core] else s)

/-- Group slot, x.group index and partition for a group of a team (R235, R250). -/
def Core.launchRoom (k : Core) (team budget : Nat) : Option (Nat × Nat × Nat) :=
  let part := bestPart k.freeRegs
  match tabFree k.groups 64, (List.range 32).find? (fun i => !k.groups.any (fun g => g.2.team == team && g.2.index == i)) with
  | some slot, some index => if budget ≤ k.freeRegs.getD part 0 then some (slot, index, part) else none
  | _, _ => none

/-- Vector registers of lane n from a bundle's lane (R251). -/
def Group.loadLane (g : Group) (b : Bundle) (lane n : Nat) : Group :=
  let g := b.cols.foldl (fun g c => g.setVreg c.1 n (tabGet 0 c.2 lane)) g
  { g with gens := tabSet 0 g.gens n (tabGet 0 b.gens lane) }

/-- The group that an entry of the launch list becomes (R251). -/
def Core.binGroup (k : Core) (e : LaunchEntry) (fresh : Group) : Group :=
  let first := (e.refs.head?.bind (fun r => tabFind k.bundles r.bundle))
  let s := match e.key.kind with
    | .spill => ((first.map Bundle.sregs).getD []).foldl (fun t r => tabSet 0 t r.1 r.2) []
    | _ => fresh.s
  let g : Group := { fresh with
    s := s
    recs := [(0, { PathRec.free with state := .running, lanes := BitVec.ofNat 32 (2 ^ e.refs.length - 1), place := e.key.place })] }
  ((List.range e.refs.length).zip e.refs).foldl (fun g r =>
    match tabFind k.bundles r.2.bundle with
    | some b => g.loadLane b r.2.lane r.1
    | none => g) g

/-- A thread record leaves the barn: its LEFT bit is cleared, and a bundle with none left frees its lines (R247). -/
def Core.leaveBarn (k : Core) (r : ThreadRef) : Core :=
  match tabFind k.bundles r.bundle with
  | none => k
  | some b =>
    let b := { b with left := b.left &&& ~~~((1 : LaneMask) <<< r.lane) }
    if b.left = 0 then { k with bundles := tabDel k.bundles r.bundle }.unpinBarn b.pins
    else { k with bundles := tabPut k.bundles r.bundle b }

/-- BIN_GROUP_LAUNCH (R250, R251): the head of the launch list, one a cycle, when its resources are free. Nothing of a
context that is not resident is launched (R338). -/
def execBinGroupLaunch (core : Nat) (s : State) : Host.Outcome State Fault Refusal :=
  let k := s.core core
  .next (match k.launchList with
    | [] => s
    | e :: rest =>
      if k.launchedAt = s.clockOf core + 1 then s
      else
        match tabFind k.teams e.key.team with
        | none => s
        | some t =>
          match tabFind s.launches t.launch with
          | none => s
          | some l =>
            let budget := ((l.roles[e.key.role]?).map Role.budget).getD 0
            if (s.ctx t.ctx).state ≠ .resident then s
            else
              match k.launchRoom e.key.team budget with
              | none => s
              | some (slot, index, part) =>
                let g := k.binGroup e (newGroup t.ctx t.launch e.key.team index e.key.role part budget s.time l.entry l.slot)
                let k := e.refs.foldl Core.leaveBarn { k with launchList := rest, launchedAt := s.clockOf core + 1, groups := tabPut k.groups slot g }
                (((s.setCore core k).settle core slot)).barnFreed core)

/-! ### Groups and teams that end (R151, R236) -/

/-- A copy is to write registers of a group's slot. -/
def State.windowCopies (s : State) (core slot : Nat) : Bool :=
  s.cores.any (fun c => c.2.copies.any (fun x => (x.2.todo ++ x.2.flying.map FlyOp.op).any (fun o => o.pieces.any (fun p =>
    match p.dst with
    | .ptr q => ptrTag q == 2 && ptrWindow q == 0 && ptrOff q >>> 15 == slot && s.targetCore x.2.ctx q == core
    | _ => false))))

/-- The lines that a core holds for a group are promoted (R291). -/
def State.promoteGroup (s : State) (core slot x : Nat) : State :=
  (s.core core).held.foldl (fun s l =>
    if ((s.dirOf l).held.map (fun h => h.core == core && h.slot == slot && h.ctx == x)).getD false then s.promoteLine l else s) s

/-- A group's slot is released: its owing bit goes, and CARRY with the last of them (R288). -/
def Core.removeGroup (k : Core) (slot x : Nat) : Core :=
  let k := { k with
    groups := tabDel k.groups slot
    parts := k.parts.map (fun p => (p.1, ⟨p.2.greedy.filter (· != slot), p.2.yielded.filter (· != slot)⟩))
    barnWait := k.barnWait.filter (fun e => e.1 != slot) }
  if k.owing x then k else { k with carry := tabDel k.carry x }

/-- The stores that an ended group has issued are performed, those that nothing earlier holds back; the others go on under a
number that no group has (R151). -/
def State.performStores (s : State) (core slot : Nat) : State :=
  let s := (s.core core).accs.foldl (fun s a =>
    match tabFind (s.core core).accs a.1 with
    | some x => if a.2.slot = slot ∧ x.ordered ∧ !(s.core core).accessBlocked a.1 x then s.performAccess core a.1 x else s
    | none => s) s
  s.onCore core (fun k => { k with accs := k.accs.map (fun a => if a.2.slot = slot then (a.1, { a.2 with slot := 64 + k.nextAcc }) else a) })

/-- GROUP_END (R151). -/
def execGroupEnd (core slot : Nat) (s : State) : Host.Outcome State Fault Refusal :=
  .next (match s.group core slot with
    | none => s
    | some g =>
      if !g.ended || (s.core core).groupBusy slot || s.windowCopies core slot then s
      else
        let s := (if (s.core core).accs.any (fun a => a.2.slot == slot) then s.performStores core slot else s).promoteGroup core slot g.ctx
        (s.onCore core (fun k => k.removeGroup slot g.ctx)).enqueue [.teamEnd core g.team, .binGroupLaunch core])

/-- The barn holds none of a team's threads, and no group of it is resident (R236). -/
def Core.teamEmpty (k : Core) (team : Nat) : Bool :=
  !k.groups.any (fun g => g.2.team == team) && !k.bundles.any (fun b => b.2.team == team) &&
    !k.bins.any (fun b => b.2.key.team == team) && !k.launchList.any (fun e => e.key.team == team)

/-- What a team holds on its core is free, and operations of it that go on name no barrier object of it. -/
def Core.removeTeam (k : Core) (team : Nat) (t : Team) : Core :=
  let inside (a : Nat) : Bool := t.base * 128 ≤ a && a < t.base * 128 + t.bytes
  let bar (b : Option Nat) : Option Nat := b.filter (fun a => !inside a)
  let k := k.clearScratch t.base t.bytes
  { k with
    teams := tabDel k.teams team
    pins := t.pins.foldl (fun t p => pinPut t p false) k.pins
    tiles := k.tiles.filter (fun e => !t.tiles.contains (e.1 / tileElems))
    barDue := k.barDue.filter (fun a => !inside a)
    matrix := { k.matrix with running := k.matrix.running.map (fun m => if m.team = team then { m with dead := true } else m) }
    nears := k.nears.map (fun n => if n.2.team = team then (n.1, { n.2 with dead := true, bar := none }) else n)
    copies := k.copies.map (fun c => (c.1, { c.2 with bar := bar c.2.bar }))
    steps := k.steps.map (fun c => (c.1, { c.2 with bar := bar c.2.bar })) }

/-- TEAM_END (R236, R263, R264). -/
def execTeamEnd (core team : Nat) (s : State) : Host.Outcome State Fault Refusal :=
  .next (match tabFind (s.core core).teams team with
    | none => s
    | some t =>
      if t.waiting || !(s.core core).teamEmpty team then s
      else
        let inside (a : Nat) : Bool := t.base * 128 ≤ a && a < t.base * 128 + t.bytes
        let s : State := { s.onCore core (fun k => k.removeTeam team t) with
          launches := tabMod s.launches t.launch (fun l => { l with live := l.live - 1 })
          qps := s.qps.map (fun q => (q.1, q.2.eachReq (fun r =>
            if r.core = core then { r with bar := r.bar.filter (fun a => !inside a) } else r))) }
        let s := ((s.dropDeadRequests core).serveTilesAll core).tryPreempt t.ctx
        s.enqueue [.launchComplete t.launch])

/-! ### The starvation guard (R241) -/

/-- Cycles ready and not issued after which a group is forced. -/
def starved : Nat := 8192

/-- `a` is before `b` in the order of age (R237): group slot and group. -/
def olderGroup (a b : Nat × Group) : Bool :=
  if a.2.age ≠ b.2.age then a.2.age < b.2.age else if a.2.index ≠ b.2.index then a.2.index < b.2.index else a.1 < b.1

/-- The oldest of some groups. -/
def oldest : List (Nat × Group) → Option (Nat × Group)
  | [] => none
  | g :: gs => some (gs.foldl (fun a b => if olderGroup b a then b else a) g)

/-- A record whose context lets it issue: a context that is resident; one that is saving or ending until its next
pre-emption point (R338). -/
def State.mayIssue (s : State) (k : Core) (g : Group) (q : PathRec) : Bool :=
  q.state == .running && q.matFaults.isEmpty && !g.ended &&
    !(((tabFind k.teams g.team).map Team.waiting).getD true) &&
    (match (s.ctx g.ctx).state with
      | .resident => true
      | .saving => q.place.word != q.place.block
      | .ending => q.place.word != q.place.block
      | _ => false)

/-- A word waits on no register: one that does leaves its group passed over in the cycle (R240). Its guard is read whatever
the guard's lanes are. -/
def Group.passes (g : Group) (q : PathRec) (i : Instr) (now : Nat) : Bool :=
  match shapeOf i with
  | none => true
  | some x =>
    let act := q.lanes &&& g.guardMask (guardOf i)
    g.readable (0xF0 + (guardOf i).toNat % 8) q.lanes now &&
      (act == 0 ||
        (match g.waits x with
          | .stall => false
          | .go => g.settled i act now
          | _ => true))

/-- A record is ready (R240). -/
def State.recReady (s : State) (core : Nat) (g : Nat × Group) (i : Nat) : Bool :=
  let q := g.2.prec i
  decide (q.ready ≤ s.clockOf core) && s.mayIssue (s.core core) g.2 q &&
    (match s.peekWord ⟨core, g.1, i⟩ with
      | some w => g.2.passes q w (s.clockOf core) &&
          (q.lanes &&& g.2.guardMask (guardOf w) == 0 || !(s.core core).holdsBack g.1 g.2 q w)
      | none => true)

/-- Ready records of a group, most lanes first, select bit 0 on a tie. -/
def State.readyRecs (s : State) (core : Nat) (g : Nat × Group) : List Nat :=
  match s.recReady core g 0, s.recReady core g 1 with
  | true, true => if laneCount (g.2.prec 0).lanes < laneCount (g.2.prec 1).lanes then [1, 0] else [0, 1]
  | true, false => [0]
  | false, true => [1]
  | false, false => []

/-- STARVATION_GUARD (R241): of the partition's ready groups that have waited 8,192 cycles, the oldest issues. -/
def execStarvationGuard (core part : Nat) (s : State) : Host.Outcome State Fault Refusal :=
  let k := s.core core
  .next (match oldest (k.groups.filter (fun g => core < 512 && g.2.part == part && starved ≤ g.2.wait && !(s.readyRecs core g).isEmpty)) with
    | none => s
    | some g =>
      let s := s.onGroup core g.1 (fun g => { g with wait := 0 })
      { s with issuing := s.issuing ++ (s.readyRecs core g).map (fun i => ⟨core, g.1, i⟩) })

end Sys2Proof.Machine
end

