-- ==== Sys2Proof/Machine/Resume.lean ====
section
/-! DEFINITION. Sys2Proof/Machine/Resume.lean: walks and translation fences (R350, R353), resume words and retries
(R356), and the migration entries (R358, R359). -/

namespace Sys2Proof.Machine

/-! ### Walks and fences (R350, R352, R353) -/

/-- TRANSLATION_WALK (R350, R352): a walk of a die's walker fills the die's translation cache. -/
def execTranslationWalk (die x : Nat) (p : Word64) (s : State) : Host.Outcome State Fault Refusal :=
  .next (if 4 ≤ die ∨ 64 ≤ x ∨ 2 ≤ ptrTag p then s
    else
      match (s.lookupDesc (128 * die) x (ptrObj p)).1.bind (fun w => decodeDesc w (ptrTag p == 1)) with
      | none => s
      | some d =>
        match s.translate (128 * die) x (ptrObj p) d (ptrOff p) with
        | .ok (_, s) => s
        | .error _ => s)

/-- TSEQ_WRITE (R353). -/
def execTseqWrite (v : Word64) (s : State) : Host.Outcome State Fault Refusal :=
  .next { s with tseq := v, tseqMark := (s.nextTag, s.time) }

/-- Every access that was translated before TSEQ was written has completed or failed: requests and line operations of
earlier numbers, and line operations of a DRAIN accepted earlier. -/
def State.fenceDone (s : State) : Bool :=
  !s.lower.any (fun r => r.1 < s.tseqMark.1) && !s.upper.any (fun r => r.1 < s.tseqMark.1 && r.2.answer.isNone) &&
    s.cores.all (fun c => c.2.copies.all (fun x =>
      !x.2.flying.any (fun f => f.seq < s.tseqMark.1) &&
        !(isDrain x.2.instr && !x.2.waitDrain && !x.2.todo.isEmpty && x.2.time ≤ s.tseqMark.2)))

/-- TDONE_UPDATE (R353). -/
def execTdoneUpdate (s : State) : Host.Outcome State Fault Refusal :=
  .next (if s.fenceDone then { s with tdone := s.tseq } else s)

/-! ### Retries (R356) -/

/-- A hold ends. -/
def holdAt (h : Option Hold) (pa : Nat) : Bool := (holdStops h).contains pa

/-- Engines of a core held at a table word try again. -/
def Core.retry (k : Core) (pa : Nat) : Core :=
  { k with
    copies := k.copies.map (fun x => (x.1, if holdAt x.2.hold pa then { x.2 with hold := none } else x.2))
    steps := k.steps.map (fun x => (x.1, if holdAt x.2.hold pa then { x.2 with hold := none } else x.2))
    nears := k.nears.map (fun x => (x.1, if holdAt x.2.hold pa then { x.2 with hold := none } else x.2)) }

/-- Work requests held at a table word are sent again. -/
def State.netRetry (s : State) (pa : Nat) : State :=
  s.qps.foldl (fun s q =>
    if q.2.pending.any (fun r => holdAt r.hold pa) then
      (s.setQp q.1 ((s.qp q.1).eachReq (fun r => if holdAt r.hold pa then { r with hold := none } else r))).netResume q.1
    else s) s

/-- TRANSLATION_RETRY (R356): a table word or descriptor has been written: records parked with the reason translation at it
wake, and what is held at it tries again. -/
def execTranslationRetry (pa : Nat) (s : State) : Host.Outcome State Fault Refusal :=
  let s := s.cores.foldl (fun s c =>
    s.wakeWhere c.1 (fun _ _ q => q.reason == 11 && q.waitPtrs.contains (BitVec.ofNat 64 pa))) s
  let s : State := { s with cores := s.cores.map (fun c => (c.1, c.2.retry pa)) }
  .next (s.netRetry pa)

/-! ### Resume words (R356) -/

/-- The resume word of a context. -/
def State.resumeWord (s : State) (x : Nat) : Word64 := tabGet 0 s.resume x

/-- GO is set, the context has its state on its cores, and the word asks for an action. -/
def State.resumes (s : State) (x : Nat) (engine : Bool) (acts : List Nat) : Bool :=
  let w := s.resumeWord x
  x < 64 && w.getLsbD 63 && !(s.ctx x).away && w.getLsbD 10 == engine && acts.contains (fieldOf w 8 2)

/-- GO is cleared. -/
def State.clearGo (s : State) (x : Nat) : State :=
  { s with resume := tabSet 0 s.resume x (s.resumeWord x &&& ~~~(BitVec.ofNat 64 (2 ^ 63))) }

/-- Physical core that a resume word names. -/
def State.resumeCore (s : State) (x : Nat) : Nat := physCore (s.ctx x).cmap (fieldOf (s.resumeWord x) 24 9)

/-- The record that a resume word names, where it is parked with reason 6 or 11: core, slot, record. -/
def State.resumeRec (s : State) (x : Nat) : Option (Nat × Nat × Nat) :=
  let w := s.resumeWord x
  let core := s.resumeCore x
  let slot := fieldOf w 0 6
  let i := fieldOf w 6 2
  match s.group core slot with
  | none => none
  | some g =>
    let q := g.prec i
    if g.ctx = x ∧ q.state = .parked ∧ (q.reason = 6 ∨ q.reason = 11) then some (core, slot, i) else none

/-- An action on the record that a resume word names; GO is cleared either way. -/
def State.resumeWith (s : State) (x : Nat) (acts : List Nat) (f : State → Nat → Nat → Nat → State) : State :=
  if !s.resumes x false acts then s
  else
    match s.resumeRec x with
    | none => s.clearGo x
    | some (core, slot, i) => f (s.clearGo x) core slot i

/-- RESUME_REISSUE (R356): the record runs on at its word. A word with ACT 0 does nothing. -/
def execResumeReissue (x : Nat) (s : State) : Host.Outcome State Fault Refusal :=
  let act := fieldOf (s.resumeWord x) 8 2
  .next (s.resumeWith x [0, 1] (fun s core slot i => if act = 1 then s.wake core slot i else s))

/-- The access that a record parked whole holds (R256). -/
def Core.heldAccess (k : Core) (slot i : Nat) : Option (Nat × Access) := k.accs.find? (fun a => a.2.slot == slot && a.2.prec == i && a.2.held)

/-- The lanes that a record parked whole holds at the memory port leave their access, which is done for the others. -/
def State.dropHeld (s : State) (core slot i : Nat) : State :=
  match (s.core core).heldAccess slot i with
  | none => s
  | some (id, a) =>
    let rest := a.lanes.filter (fun l => s.lower.any (fun r => r.2.core == core && r.2.kind == .att id l.lane))
    let a' := { a with lanes := rest, performed := rest.isEmpty, held := false }
    let due := (s.core core).accs.filter (fun b => b.2.slot == slot && !b.2.performed)
    (s.onCore core (fun k => { k with accs := tabPut k.accs id a' })).enqueue (due.map (fun b => Instr.longLatencyResult core b.1))

/-- RESUME_DELIVER_TRAP (R356): the parked lanes take the trapping fault on which they parked; a breakpoint never enters a
trap block. -/
def execResumeDeliverTrap (x : Nat) (s : State) : Host.Outcome State Fault Refusal :=
  .next (s.resumeWith x [2] (fun s core slot i =>
    match s.group core slot with
    | none => s
    | some g =>
      let q := g.prec i
      if q.cls = 18 then s
      else
        match (s.core core).heldAccess slot i with
        | none =>
          (s.onPrec core slot i (fun q => { q with state := .running, reason := 0, obj := 0, waitPtrs := [], woken := false })).deliverTrap
            core slot i q.lanes q.place q.cls q.obj
        | some (_, a) =>
          let lanes := maskOf (a.lanes.map LaneAccess.lane) &&& q.lanes
          let s := s.dropHeld core slot i
          (s.onPrec core slot i (fun q => { q with state := .running, reason := 0, obj := 0, waitPtrs := [], woken := false })).deliverTrap
            core slot i lanes a.place q.cls q.obj))

/-- RESUME_END_LANES (R356): the parked lanes end as by EXIT. -/
def execResumeEndLanes (x : Nat) (s : State) : Host.Outcome State Fault Refusal :=
  .next (s.resumeWith x [3] (fun s core slot i =>
    match s.group core slot with
    | none => s
    | some g => (s.dropHeld core slot i).exitLanes core slot i (g.prec i).lanes))

/-- The engine slot that a resume word names, where it is held: what kind (0 copy, 1 step, 2 near), core and slot. -/
def State.resumeEngine (s : State) (x : Nat) : Option (Nat × Nat × Nat × Word64) :=
  let n := fieldOf (s.resumeWord x) 16 8
  let core := s.resumeCore x
  let k := s.core core
  if n < 128 then
    match tabFind k.copies n with
    | some c => if c.ctx = x then c.hold.map (fun h => (0, core, n, h.ptr)) else none
    | none => none
  else if n < 160 then
    match tabFind k.steps (n - 128) with
    | some c => if c.ctx = x then c.hold.map (fun h => (1, core, n - 128, h.ptr)) else none
    | none => none
  else if n < 176 then
    match tabFind k.nears (n - 160) with
    | some c => if c.ctx = x then c.hold.map (fun h => (2, core, n - 160, h.ptr)) else none
    | none => none
  else none

/-- RESUME_ENGINE_RETRY (R356): the held operation tries its line again. A word with ACT 0 does nothing. -/
def execResumeEngineRetry (x : Nat) (s : State) : Host.Outcome State Fault Refusal :=
  let act := fieldOf (s.resumeWord x) 8 2
  .next (if !s.resumes x true [0, 1] then s
    else
      match s.resumeEngine x with
      | none => s.clearGo x
      | some (kind, core, n, _) =>
        let s := s.clearGo x
        if act = 0 then s
        else
          match kind with
          | 0 => s.onCopy core n (fun c => { c with hold := none })
          | 1 => (s.onStep core n (fun c => { c with hold := none })).enqueue [.stepPair core n]
          | _ => s.onCore core (fun k => { k with nears := tabMod k.nears n (fun c => { c with hold := none }) }))

/-- Bytes that a near-memory operation credits. -/
def Near.bytes (x : Near) : Nat := let m := mmvShape (x.round.sig.vals.getD 4 0); m.m * m.v * 4

/-- A held copy ends with error status: what it has sent is still awaited. -/
def State.endHeldCopy (s : State) (core n : Nat) (p : Word64) : State :=
  (s.onCopy core n (fun c =>
    { c with
      hold := none
      todo := []
      waitDrain := false
      flying := c.flying.filter (fun f => !f.tags.isEmpty || !f.held)
      error := some (c.error.getD (6, p)) })).checkCopy core n

/-- A held step ends with error status. -/
def State.endHeldStep (s : State) (core n : Nat) (p : Word64) : State :=
  match s.stepAt core n with
  | none => s
  | some x =>
    if x.results.isNone then s.failStep core n 6 p
    else
      (s.onStep core n (fun x =>
        { x with hold := none, outs := x.outs.filter (fun o => o.2.2.isSome), error := some (x.error.getD (6, p)) })).checkStep core n

/-- RESUME_ENGINE_END (R356): the held operation ends with error status. -/
def execResumeEngineEnd (x : Nat) (s : State) : Host.Outcome State Fault Refusal :=
  .next (if !s.resumes x true [2, 3] then s
    else
      match s.resumeEngine x with
      | none => s.clearGo x
      | some (kind, core, n, p) =>
        let s := s.clearGo x
        match kind with
        | 0 => s.endHeldCopy core n p
        | 1 => s.endHeldStep core n p
        | _ =>
          match tabFind (s.core core).nears n with
          | none => s
          | some y => s.nearFail core n y y.bytes 6 p)

/-! ### Migration (R358, R359) -/

/-- MIGRATION_ENABLE (R358): EN is set, and the entry starts from its first line. -/
def execMigrationEnable (ctl entry : Nat) (s : State) : Host.Outcome State Fault Refusal :=
  let m := s.mig ctl entry
  .next (if ctlCount ≤ ctl ∨ migCount ≤ entry ∨ m.en then s
    else s.setMig ctl entry { m with en := true, ptr := 0, done := m.lines == 0, early := [], owner := none })

/-- An enabled snapshot entry covers a line of a move that has not begun: the move keeps PTR at 0 (R439). -/
def State.moveWaits (s : State) (m : Migration) : Bool :=
  m.ptr == 0 && s.migs.any (fun e => e.2.en && e.2.mode && decide (e.2.src / 128 < m.src / 128 + m.lines) &&
    decide (m.src / 128 < e.2.src / 128 + e.2.lines))

/-- MOVE_LINE_COPY (R359): the line at PTR is copied whole and PTR passes it. -/
def execMoveLineCopy (ctl entry : Nat) (s : State) : Host.Outcome State Fault Refusal :=
  let m := s.mig ctl entry
  .next (if ctlCount ≤ ctl ∨ migCount ≤ entry ∨ !m.en ∨ m.mode ∨ m.lines ≤ m.ptr ∨ !s.isLive (paModule m.dst) ∨ s.moveWaits m then s
    else
      let dst := s.forward (m.dst / 128 + m.ptr)
      let s := (s.snapBefore dst).moveLine (m.src / 128 + m.ptr) dst
      s.setMig ctl entry { s.mig ctl entry with ptr := m.ptr + 1, done := m.ptr + 1 == m.lines })

/-- MIGRATION_DISABLE (R359): EN is cleared. An entry that a DRAIN holds is the DRAIN's. -/
def execMigrationDisable (ctl entry : Nat) (s : State) : Host.Outcome State Fault Refusal :=
  let m := s.mig ctl entry
  .next (if ctlCount ≤ ctl ∨ migCount ≤ entry ∨ m.owner.isSome then s else s.setMig ctl entry { m with en := false })

end Sys2Proof.Machine
end

