-- ==== Sys2Proof/Machine/Errors.lean ====
section
/-! DEFINITION. Sys2Proof/Machine/Errors.lean: the loss of a peer (R375, R387, R431, R432) and soft errors, retired pages
and their records (R428, R429). -/

namespace Sys2Proof.Machine

/-! ### Records of the module error log -/

/-- A record of the module error log of a class and cause at an address (R423). -/
def State.logError (s : State) (cls cause core : Nat) (addr : Word64) : State :=
  s.logModule ⟨cls, 0, 0, cause, false, 0, 0, core, addr, 0, 0, 0⟩

/-! ### LIVE_CHANGE -/

/-- The home of a line, at which its requests are now served. -/
def State.servingHome (s : State) (l : Nat) (d : DirEntry) : Option Nat :=
  if s.isLive (paModule (l * 128)) then some (paModule (l * 128))
  else (d.mirror.map (fun m => paModule (m * 128))).filter s.isLive

/-- The agent's module is lost. -/
def State.agentLost (s : State) (a : Nat) : Bool := !s.isLive (a / 8)

/-- The newer bytes of a line lay on a lost module. -/
def State.newerLost (s : State) (l : Nat) (d : DirEntry) : Bool :=
  let newer (a : Nat) : Bool := match s.agentLine a l with
    | some x => x.state == .m || x.state == .o || (x.state == .pw && x.mask != 0)
    | none => false
  ((d.state == .x || d.state == .o) && s.agentLost d.owner && newer d.owner) || d.masks.any (fun e => s.agentLost e.1 && newer e.1)

/-- A directory entry without the agents of lost modules (R432): an owner's line takes its home value. -/
def State.withoutLost (s : State) (d : DirEntry) : DirEntry :=
  let d := { d with
    held := match d.held with
      | some h => if s.isLive h.module then some h else none
      | none => none }
  match d.state with
  | .i => d
  | .x => if s.agentLost d.owner then { d with state := .i, owner := 0 } else d
  | .o =>
    if s.agentLost d.owner then { d with state := .i, owner := 0, sharers := [] }
    else { d with sharers := d.sharers.filter (fun a => !s.agentLost a) }
  | .s =>
    let sh := d.sharers.filter (fun a => !s.agentLost a)
    { d with sharers := sh, state := if sh.isEmpty then .i else .s }
  | .p =>
    let ms := d.masks.filter (fun e => !s.agentLost e.1)
    { d with masks := ms, state := if ms.isEmpty then .i else .p }

/-- Recovery of one line's entry. -/
def State.recoverLine (s : State) (l : Nat) (d : DirEntry) : State :=
  match s.servingHome l d with
  | none =>
    -- both homes are lost: no agent and no core keeps the line
    { s with
      l2 := s.l2.filter (fun e => e.1 % 2 ^ 49 != l)
      cores := s.cores.map (fun c => (c.1, { c.2 with l1 := c.2.l1.filter (fun y => y.2.pline != l) }))
      dir := tabDel s.dir l }
  | some home =>
    let s := if d.state = .o ∧ s.agentLost d.owner then s.invalidateAll d.sharers l else s
    let lost := s.newerLost l d
    let s := s.setDir l (s.withoutLost d)
    if lost ∧ home = s.moduleId.toNat then s.logError 12 1 0 (BitVec.ofNat 64 (l * 128)) else s

/-- The entry with which a line is served after a loss: its own, or that of its mirror home's slot once its primary is lost
(R363, R375). -/
def State.entryLeft (s : State) (l : Nat) (d : DirEntry) : DirEntry :=
  if s.isLive (paModule (l * 128)) then d
  else
    match d.mirror with
    | some m => tabGet d s.mirrorDir m
    | none => d

/-- Lines' entries after a loss: those of lost primaries come from their mirror homes (R375). -/
def State.recoverLines (s : State) : State :=
  let s := { s with mirrorDir := s.mirrorDir.filter (fun e => s.isLive (paModule (e.1 * 128))) }
  let s := s.dir.foldl (fun s e => s.recoverLine e.1 (s.entryLeft e.1 e.2)) s
  { s with l2 := s.l2.filter (fun e => !s.agentLost (e.1 / 2 ^ 49)) }

/-- An upper-deck request to a lost home is sent again to the new primary (R375, R386); where this module is the new primary, or no
home is left, its access goes on here. -/
def State.askAgain (s : State) (tag : Nat) (e : UpperReq) : State :=
  let s : State := { s with upper := tabDel s.upper tag }
  let here (s : State) : State :=
    ({ s with upper := tabPut s.upper tag { e with answer := some none } } : State).enqueue [.longLatencyResult e.core e.acc]
  match s.homeLine ⟨e.line, e.slot⟩ with
  | .ok h => if paModule (h * 128) = s.moduleId.toNat then here s else s.sendUpper { e with sent := h }
  | .error _ => here s

/-- What is outstanding to a lost module ends (R431). -/
def State.dropPeer (s : State) (m : Nat) : State :=
  let s := (s.upper.filter (fun e => e.2.answer.isNone && paModule (e.2.sent * 128) == m)).foldl (fun s e => s.askAgain e.1 e.2) s
  let s := (s.lower.filter (fun r => r.2.peer == m)).foldl (fun s e =>
    let w := s.window e.2.ctx e.2.peer
    let w := if e.2.sent.isSome then { w with out := w.out - e.2.bytes } else w
    ((s.dropLower e.1 w e.2).lowerFailed e.1 11 e.2).afterLower e.2.core) s
  let s := (s.allSteps.filter (fun y => y.2.2.peer == m)).foldl (fun s y => s.failStep y.1 y.2.1 14 y.2.2.buf) s
  { s with windows := s.windows.filter (fun w => w.1 % 256 != m), xlats := s.xlats.filter (fun t => paModule t.pa != m && t.mirror != m) }

/-- LIVE_CHANGE (R431, R432). -/
def execLiveChange (live : BitVec 256) (epoch : Word64) (s : State) : Host.Outcome State Fault Refusal :=
  let gone := (List.range 256).filter (fun m => s.live.getLsbD m && !live.getLsbD m && m != s.moduleId.toNat)
  let s := { s with live := live, mepoch := epoch }
  .next (if gone.isEmpty then s else gone.foldl (fun s m => s.dropPeer m) s.recoverLines)

/-! ### Retired pages (R429) -/

/-- Entries of a controller's retired-page list. -/
def retiredMax : Nat := 256
/-- Corrected errors of a frame that retire it. -/
def correctedMax : Nat := 16
/-- Nanoseconds within which they fall. -/
def correctedWindow : Nat := 2 ^ 40

/-- Retired frames of a controller. -/
def State.retiredAt (s : State) (ctl : Nat) : List Nat := tabGet [] s.retired ctl

/-- A frame enters the list of its controller, and a record goes to the module error log; a full list takes nothing more. -/
def State.retireFrame (s : State) (pa : Nat) : State :=
  let ctl := controllerOf pa
  let f := pa / 4096
  let rs := s.retiredAt ctl
  if rs.contains f ∨ retiredMax ≤ rs.length then s
  else ({ s with retired := tabPut s.retired ctl (f :: rs) } : State).logError 20 1 0 (BitVec.ofNat 64 (f * 4096))

/-- CAUSE of a corrected-data record at an address: bit 0 is set once the controller's list is full. -/
def State.correctedCause (s : State) (pa : Nat) : Nat := if retiredMax ≤ (s.retiredAt (controllerOf pa)).length then 1 else 0

/-- The address lies in this module's memory. -/
def State.ownMemory (s : State) (pa : Nat) : Bool := paModule pa == s.moduleId.toNat && paPresent pa

/-- A corrected error of memory: counted for its frame, which the 16th within the window retires. -/
def State.correctedMemory (s : State) (pa : Nat) : State :=
  let s := s.logError 20 (s.correctedCause pa) 0 (BitVec.ofNat 64 pa)
  let f := pa / 4096
  let ts := s.ptime :: (tabGet [] s.corrected f).filter (fun t => (s.ptime - t).toNat ≤ correctedWindow)
  let s := { s with corrected := tabPut s.corrected f (ts.take correctedMax) }
  if correctedMax ≤ ts.length then s.retireFrame pa else s

/-! ### Where errors lie -/

/-- On-chip map pointer of a place in a core. -/
def sitePointer (core window off : Nat) : Word64 := BitVec.ofNat 64 (2 * 2 ^ 62 + core % 512 * 2 ^ 43 + window * 2 ^ 40 + off)

/-- Address, or index of the structure, that a record of an error shows. -/
def siteAddr : ErrorSite → Word64
  | .register core slot reg lane => sitePointer core 0 (slot * 2 ^ 15 + reg * 128 + (if reg < 192 then 4 * lane else 0))
  | .l1 _ _ line _ _ => BitVec.ofNat 64 (line * 128)
  | .scratch core addr _ _ => sitePointer core 1 addr
  | .tile core tile elem => sitePointer core 2 (tile * 16384 + 4 * elem)
  | .l2 _ r => BitVec.ofNat 64 (r.line * 128)
  | .table core _ => BitVec.ofNat 64 core
  | .router r _ _ => BitVec.ofNat 64 r
  | .matrix core => sitePointer core 2 0
  | .step core _ => BitVec.ofNat 64 core
  | .memory l => BitVec.ofNat 64 (l * 128)

/-- Core that a record of an error shows. -/
def siteCore : ErrorSite → Nat
  | .register c _ _ _ => c
  | .l1 c _ _ _ _ => c
  | .scratch c _ _ _ => c
  | .tile c _ _ => c
  | .l2 _ _ => 0
  | .table c _ => c
  | .router _ _ _ => 0
  | .matrix c => c
  | .step c _ => c
  | .memory _ => 0

/-- ERROR_CORRECTED (R428, R429): repaired in place and recorded. -/
def execErrorCorrected (e : ErrorSite) (s : State) : Host.Outcome State Fault Refusal :=
  .next (match e with
    | .memory l => if s.ownMemory (l * 128) then s.correctedMemory (l * 128) else s
    | e => s.logError 20 0 (siteCore e) (siteAddr e))

/-! ### ERROR_UNCORRECTABLE -/

/-- The running record of a group that holds a lane. -/
def Group.readerOf (g : Group) (lane : Nat) : Option Nat :=
  [0, 1, 2, 3].find? (fun i => (g.prec i).state = .running ∧ (g.prec i).lanes.getLsbD lane)

/-- The lanes whose next word reads a failing place take class 19 there. -/
def State.readerFault (s : State) (core slot lane : Nat) (all : Bool) (addr : Word64) : State :=
  match s.group core slot with
  | none => s
  | some g =>
    match g.readerOf lane with
    | none => s
    | some i =>
      let q := g.prec i
      let lanes := if all then q.lanes else maskOf [lane]
      s.trapFault core slot i lanes q.place 19 addr 0 0 0 (lowestLane lanes)

/-- The operation running on a core's matrix engine reads an accumulator element that it cannot read: the element and what
comes of it keep their values, and the operation ends with error status. -/
def MatrixOp.withoutElem (op : MatrixOp) (elem : Nat) : MatrixOp :=
  { op with
    error := some (op.error.getD 19)
    run := op.run.map (fun r => { r with lost := elem :: r.lost })
    tileWrites := op.tileWrites.filter (fun w => w.1 != op.tile * tileElems + elem)
    scratchWrites := (List.range op.scratchWrites.length).flatMap (fun i =>
      match op.scratchWrites[i]? with
      | none => []
      | some (a, bs) =>
        let n := bs.length / 64
        if i = elem / 64 then [(a, bs.take (elem % 64 * n)), (a + (elem % 64 + 1) * n, bs.drop ((elem % 64 + 1) * n))] else [(a, bs)]) }

/-- An operation whose arithmetic failed its parity ends with error status and writes nothing. -/
def MatrixOp.failed (op : MatrixOp) : MatrixOp := { op with error := some (op.error.getD 19), run := none, tileWrites := [], scratchWrites := [] }

/-- A line's bytes at an agent are lost: the home marks it failed, and no agent holds it. -/
def State.loseLine (s : State) (r : HomeRef) : State :=
  let mark (s : State) (l : Nat) : State := if s.failed.contains l then s else { s with failed := l :: s.failed }
  let s := { s with l2 := s.l2.filter (fun e => e.1 % 2 ^ 49 != r.line) }
  let s := s.dropCached r.line
  let d := s.dirOf r.line
  let s := s.setDir r.line { d with state := .i, owner := 0, sharers := [], masks := [] }
  match s.homeLine r with
  | .error _ => s
  | .ok l =>
    match s.liveSlot r with
    | some m => mark (mark s (s.forward l)) (s.forward m)
    | none => mark s (s.forward l)

/-- An uncorrectable error in an agent's line. -/
def State.l2Error (s : State) (a : Nat) (r : HomeRef) : State :=
  match s.agentLine a r.line with
  | none => s
  | some x =>
    if a / 8 ≠ s.moduleId.toNat then s
    else if x.state = .s ∨ x.state = .e then
      match s.homeRead r with
      | .ok d => (s.setAgent a r.line { x with data := d }).logError 20 0 0 (BitVec.ofNat 64 (r.line * 128))
      | .error _ => s
    else (s.loseLine r).logError 19 0 0 (BitVec.ofNat 64 (r.line * 128))

/-- An uncorrectable error of memory: the line is marked failed, and its frame retired at the first. -/
def State.memoryError (s : State) (l : Nat) : State :=
  if !s.ownMemory (l * 128) then s
  else
    let s := if s.failed.contains l then s else { s with failed := l :: s.failed }
    (s.logError 19 0 0 (BitVec.ofNat 64 (l * 128))).retireFrame (l * 128)

/-- ERROR_UNCORRECTABLE (R428). -/
def execErrorUncorrectable (e : ErrorSite) (s : State) : Host.Outcome State Fault Refusal :=
  .next (match e with
    | .register core slot reg lane => s.readerFault core slot lane (192 ≤ reg) (siteAddr e)
    | .l1 core x line slot lane =>
      match tabFind (s.core core).l1 (l1Key x line) with
      | none => s
      | some y =>
        if y.dirty = 0 then (s.dropL1 core (l1Key x line)).logError 20 0 core (siteAddr e)
        else s.readerFault core slot lane false (siteAddr e)
    | .scratch core _ slot lane => s.readerFault core slot lane false (siteAddr e)
    | .tile core tile elem =>
      s.onCore core (fun k => { k with matrix := { k.matrix with
        running := k.matrix.running.map (fun op => if op.tile = tile then op.withoutElem elem else op) } })
    | .l2 a r => s.l2Error a (s.homeRef r)
    | .table core x =>
      if 64 ≤ x ∨ !(s.ctx x).valid then s
      else
        let s := s.setCtx x { s.ctx x with saveFailed := true }
        (s.logError 19 0 core (siteAddr e)).preempt x
    | .router r input c =>
      if routerCount ≤ r ∨ ownInput < input ∨ 7 ≤ c then s
      else
        match (s.router r).input input c with
        | [] => s
        | p :: ps => ((s.setRouter r ((s.router r).setInput input c ps)).returnCredits r input c p.flits).refusePacket r p 19
    | .matrix core =>
      s.onCore core (fun k => { k with matrix := { k.matrix with running := k.matrix.running.map MatrixOp.failed } })
    | .step core slot =>
      match s.stepAt core slot with
      | some x => s.failStep core slot 19 x.buf
      | none => s
    | .memory l => s.memoryError l)

end Sys2Proof.Machine
end

