-- ==== Sys2Proof/Machine/Maps.lean ====
section
/-! DEFINITION. Sys2Proof/Machine/Maps.lean: the words of the register maps as a host core reads and writes them (R7, R8), and
HOST_ACCESS (R23, R373, R409). A field of a map reads as its value, a RES0 field as zero; a write takes the fields that their
Access column lets it write, each as the field's own rule says. -/

namespace Sys2Proof.Machine

/-! ### Reading -/

/-- A word of fields: offset and value of each. -/
def packed (fs : List (Nat × Nat)) : Word64 := BitVec.ofNat 64 (packedNat fs)

/-- Word k of a wider value. -/
def wordOf {n : Nat} (x : BitVec n) (k : Nat) : Word64 := x.extractLsb' (64 * k) 64

/-- STATE's code (R323). -/
def CtxState.code : CtxState → Nat
  | .free => 0
  | .resident => 1
  | .saving => 2
  | .saved => 3
  | .restoring => 4
  | .ending => 5

/-- Words of a context-table entry (R323). -/
def Context.word (c : Context) : Nat → Word64
  | 0 => packed [(0, bitField c.valid), (1, c.state.code), (4, bitField c.preq), (5, bitField c.rreq), (16, c.job.toNat), (32, c.cos.toNat),
      (48, c.clmask.toNat)]
  | 1 => c.save
  | 2 => c.flog
  | 3 => c.cmap
  | _ => 0

/-- Words of a queue-table entry (R325). -/
def Queue.word (q : Queue) : Nat → Word64
  | 0 => q.qptr
  | 1 => packed [(0, q.logn.toNat), (8, q.ctx.toNat), (15, bitField q.en)]
  | _ => 0

/-- Words of a root-table entry (R346). -/
def Root.word (r : Root) : Nat → Word64
  | 0 => BitVec.ofNat 64 r.otbase
  | 1 => BitVec.ofNat 64 r.onum
  | _ => 0

/-- Words of a migration entry (R358). -/
def Migration.word (m : Migration) : Nat → Word64
  | 0 => BitVec.ofNat 64 m.src
  | 1 => BitVec.ofNat 64 m.dst
  | 2 => packed [(0, m.lines), (32, m.ptr)]
  | 3 => packed [(0, bitField m.mode), (1, bitField m.en), (2, bitField m.done)]
  | _ => 0

/-- A port's status register (R380). -/
def Port.word (p : Port) : Word64 :=
  packed [(0, bitField p.en), (1, p.gencap.toNat), (3, p.gen), (5, p.st), (16, p.peer), (24, p.pport), (32, p.retry)]

/-- Words of a window-table entry (R387). -/
def Window.word (w : Window) : Nat → Word64
  | 0 => packed [(0, w.win), (32, w.out)]
  | 1 => packed [(0, w.base), (32, w.emin)]
  | 2 => packed [(0, w.eack)]
  | 3 => w.estart
  | _ => 0

/-- Words of a queue-pair entry (R412); STATE reads reset while VALID is 0. -/
def QueuePair.word (q : QueuePair) : Nat → Word64
  | 0 => packed [(0, bitField q.valid), (1, if q.valid then q.st else 0), (3, q.mtu), (8, q.pd), (16, q.job), (32, q.rqpn), (56, q.port)]
  | 1 => packed [(0, q.spsn), (32, q.epsn)]
  | 2 => wordOf q.dst 0
  | 3 => wordOf q.dst 1
  | 4 => q.rcq
  | 5 => packed [(0, q.rcn), (32, q.rbuf.toNat)]
  | _ => 0

/-- Words of an island's control entry (R450). -/
def Island.word (x : Island) : Nat → Word64
  | 0 => packed [(0, x.ftgt), (8, x.fcur), (16, x.vcur), (28, bitField x.capped), (29, bitField x.therm)]
  | 1 => BitVec.ofNat 64 x.pwr
  | _ => 0

/-- What a word of a register map reads as. -/
def State.mapRead (s : State) : MapWord → Word64
  | .context x k => if x < 64 then (s.ctx x).word k else 0
  | .queue n k => if n < 64 then (s.queue n).word k else 0
  | .root x k => if x < 64 then (s.root x).word k else 0
  | .translation k => if k = 0 then s.tseq else if k = 1 then s.tdone else 0
  | .resume x => tabGet 0 s.resume x
  | .migration c e k => if c < ctlCount ∧ e < migCount then (s.mig c e).word k else 0
  | .cosMask k => if k < 16 then (tabGet 0xFFFF s.cosMasks k).setWidth 64 else 0
  | .occupancy die n k => if die < 4 ∧ n < l2Slices ∧ k < 16 then BitVec.ofNat 64 (s.occupancy (s.agentOf die) n k) else 0
  | .hostCos => s.hostCos.setWidth 64
  | .port r p => if r < routerCount ∧ p < portCount then ((s.router r).port p).word else 0
  | .route r d => if r < routerCount ∧ d < 256 then BitVec.ofNat 64 (tabGet 0 (s.router r).routes d) else 0
  | .fto => BitVec.ofNat 64 s.fto
  | .window x p k => if x < 64 ∧ p < 256 then (s.window x p).word k else 0
  | .gangHead => BitVec.ofNat 64 s.gangHead
  | .gangTail => BitVec.ofNat 64 s.gangTail
  | .gang n k => if n < 16 then wordOf (tabGet 0 s.gangSlots n) k else 0
  | .region i k => if i < 65536 then wordOf (tabGet 0 s.regions i) k else 0
  | .queuePair i k => if i < qpCount then (s.qp i).word k else 0
  | .live k => wordOf s.live k
  | .mepoch => s.mepoch
  | .boot => BitVec.ofNat 64 s.bootStatus
  | .island i k => if i < islandCount then (s.island i).word k else 0
  | .power => BitVec.ofNat 64 s.pcap

/-! ### Writing -/

/-- The state that an operation leaves. -/
def State.ran (s : State) (f : State → Host.Outcome State Fault Refusal) : State :=
  match f s with
  | .next t => t
  | _ => s

/-- Write one field: its value stands from bit lo of the word on. -/
def State.putReg (s : State) (r : ConfigReg) (v : Word64) (lo : Nat) : State := s.ran (execConfigRegisterWrite r (v >>> lo))

/-- Write a word of a register map. The fields that a map's state locks are judged before the bit of the same word that changes
the state. -/
def State.mapWrite (s : State) (w : MapWord) (v : Word64) : State :=
  match w with
  | .context x 0 =>
    let s := ((((s.putReg (.ctxJob x) v 16).putReg (.ctxCos x) v 32).putReg (.ctxClmask x) v 48).putReg (.ctxPreq x) v 4).putReg (.ctxRreq x) v 5
    if v.getLsbD 0 then s.ran (execContextValidate x) else s.ran (execContextEnd x)
  | .context x 1 => s.putReg (.ctxSave x) v 0
  | .context x 2 => s.putReg (.ctxFlog x) v 0
  | .queue n 0 => s.putReg (.queueQptr n) v 0
  | .queue n 1 =>
    let s := (s.putReg (.queueLogn n) v 0).putReg (.queueCtx n) v 8
    if v.getLsbD 15 then s.ran (execQueueEnable n) else s.ran (execQueueDisable n)
  | .root x 0 => s.putReg (.rootOtbase x) v 0
  | .root x 1 => s.putReg (.rootOnum x) v 0
  | .translation 0 => s.ran (execTseqWrite v)
  | .resume x => s.putReg (.resume x) v 0
  | .migration c e 0 => s.putReg (.migSrc c e) v 0
  | .migration c e 1 => s.putReg (.migDst c e) v 0
  | .migration c e 2 => s.putReg (.migLines c e) v 0
  | .migration c e 3 =>
    let s := s.putReg (.migMode c e) v 0
    if v.getLsbD 1 then s.ran (execMigrationEnable c e) else s.ran (execMigrationDisable c e)
  | .cosMask k => s.putReg (.cosMask k) v 0
  | .hostCos => s.putReg .hostCos v 0
  | .port r p =>
    let s := (s.putReg (.portGencap r p) v 1).putReg (.portRetry r p) v 32
    if v.getLsbD 0 then s.putReg (.portEnable r p) v 0 else s.ran (execPortDisable r p)
  | .route r d => s.putReg (.route r d) v 0
  | .fto => s.putReg .fto v 0
  | .gangTail => s.putReg .gangTail v 0
  | .gang n k => s.putReg (.gangWord n k) v 0
  | .region i k => s.putReg (.region i k) v 0
  | .queuePair i 0 =>
    let s := s.putReg (.qpWord i 0) v 0
    if v.getLsbD 0 then s.ran (execQpEnable i) else s.ran (execQpReset i)
  | .queuePair i k => s.putReg (.qpWord i k) v 0
  | .live k => if k < 4 then s.ran (execLiveChange (putWord s.live k v (bitRange 255 0)) s.mepoch) else s
  | .mepoch => s.ran (execLiveChange s.live v)
  | .island i 0 => s.ran (execFtgtWrite i (v.setWidth 7))
  | .power => s.ran (execPcapWrite (v.setWidth 12))
  | _ => s

/-! ### Host accesses -/

/-- A host access of a word of a register map: of its 8 bytes. -/
def State.hostRegister (s : State) (w : MapWord) : HostOp → State
  | .read n => { s with hostData := (leBytes 8 (s.mapRead w).toNat).take n }
  | .write bs => if bs.length = 8 then s.mapWrite w (BitVec.ofNat 64 (leNat bs)) else s
  | .atomic _ _ _ _ => s

/-- HOST_ACCESS (R23, R373, R409). -/
def execHostAccess (h : HostAccess) (s : State) : Host.Outcome State Fault Refusal :=
  let a := s.agentOf (4 + h.die)
  .next (if 2 ≤ h.die then s
    else
      let s := { s with hostData := [] }
      match h.target with
      | .register w => s.hostRegister w h.op
      | _ =>
        match h.op with
        | .read n => (hostPieces h.target n).foldl (fun s e => s.hostReadPiece a h.target e.1 e.2) s
        | .write bs => (hostPieces h.target bs.length).foldl (fun s e => s.hostWritePiece a h.target e.1 ((bs.drop e.1).take e.2)) s
        | .atomic op w v c =>
          if 12 < op ∨ (w ≠ 4 ∧ w ≠ 8) ∨ (hostPieces h.target w).length ≠ 1 then s
          else
            let x : BitVec 128 := if op = 1 then BitVec.ofNat 128 (c.toNat % 2 ^ (8 * w) + v.toNat % 2 ^ (8 * w) * 2 ^ (8 * w)) else v.setWidth 128
            s.hostAtomic a h.target op w x)

end Sys2Proof.Machine
end

