-- ==== Sys2Proof/Machine/Cycle.lean ====
section
/-! DEFINITION. Sys2Proof/Machine/Cycle.lean: one cycle of the nominal 4.0 GHz clock: the clocks, what has become due, and
the choice of the words that issue (R241, R242). Each event listed as due checks its own condition again. -/

namespace Sys2Proof.Machine

/-! ### Clocks (R18, R24, R35, R170, R450, R451) -/

/-- Cycles of the nominal clock in one nanosecond. -/
def cyclesPerNs : Nat := 4
/-- Cycles of a device tick, and of a system tick (R170). -/
def deviceCycles : Nat := 256
/-- Of a system tick. -/
def systemCycles : Nat := 4096
/-- FCUR at which a cluster counts every cycle. -/
def nominalStep : Nat := 80

/-- A cluster has a cycle of its own clock now. -/
def State.clusterTicks (s : State) (c : Nat) : Bool := nominalStep ≤ tabGet 0 s.clockAcc c + (s.island c).fcur

/-- Clusters with a cycle now. -/
def State.ticking (s : State) : List Nat := (List.range 16).filter s.clusterTicks

/-- The clocks after one more cycle. -/
def State.tick (s : State) : State :=
  let on := s.ticking
  { s with
    time := s.time + 1
    ptime := if (s.time + 1) % cyclesPerNs = 0 then s.ptime + 1 else s.ptime
    clocks := on.foldl (fun t c => tabSet 0 t c (tabGet 0 t c + 1)) s.clocks
    clockAcc := (List.range 16).foldl (fun t c =>
      let a := tabGet 0 s.clockAcc c + (s.island c).fcur
      tabSet 0 t c (if nominalStep ≤ a then a - nominalStep else a)) s.clockAcc }

/-- Heartbeat ticks of a cycle. DESIGN CHOICE (log 188): ticks are counted from nominal cycle 0. R18 and R170 give their length and do
not tie their phase to x.ptime, which configuration may set. -/
def tickEvents (t : Nat) : List Instr :=
  (if t % deviceCycles = 0 then [Instr.deviceTick] else []) ++ (if t % systemCycles = 0 then [Instr.systemTick] else [])

/-- Inputs that come after a cycle's words: what a home asks of an agent, and what other agents ask of a home (R299, R376); and
step aborts and markers, which find the results that form in their cycle (R394, R408). -/
def lateInput : Instr → Bool
  | .homeReadRequest .. | .homeOwnershipRequest .. | .homeMaskRequest .. | .homeWriteBack .. | .sharerEvictNotice .. | .readForward ..
  | .ownershipForward .. | .invalidate .. | .convert .. | .gather .. | .recall .. | .hostAccess .. | .stepAbortReceive .. | .markerArrival .. => true
  | _ => false

/-- The inputs of one cycle in the order in which they act: a write of FTGT before a capping step and one of PCAP after it (R456);
a corrected error of what an uncorrectable one meets in that cycle is none (R433). -/
def cycleOrder (es : List Instr) : List Instr :=
  let bad (x : ErrorSite) : Bool := es.any (fun i => match i with | .errorUncorrectable y => x == y | _ => false)
  let es := es.filter (fun i => match i with | .errorCorrected x => !bad x | _ => true)
  let first (i : Instr) : Bool := match i with | .ftgtWrite .. => true | _ => false
  let last (i : Instr) : Bool := match i with | .pcapWrite .. => true | _ => false
  es.filter first ++ es.filter (fun i => !first i && !last i) ++ es.filter last

/-- Inputs whose cycle has come and that a test picks, in order. -/
def State.takeInputs (s : State) (f : Instr → Bool) : State :=
  { s with
    inputs := s.inputs.filter (fun e => s.time < e.1 || !f e.2)
    agenda := s.agenda ++ cycleOrder ((s.inputs.filter (fun e => e.1 ≤ s.time && f e.2)).map Prod.snd) }

/-! ### What is settled once a cycle -/

/-- Records that have had the barn room they waited for leave the order of R254. -/
def Core.pruneBarnWait (k : Core) : Core :=
  { k with barnWait := k.barnWait.filter (fun e =>
    match tabFind k.groups e.1 with
    | none => false
    | some g =>
      let q := g.prec e.2
      (q.state == .parked && q.reason == 5) || (q.state == .running && q.answer.isSome)) }

/-- Barrier phases, paths that wait for the trap block, team and grid barriers, and the order of barn waiters. -/
def State.settleCycle (s : State) : State :=
  let s := s.cores.foldl (fun s c => s.barSettleAll c.1) s
  let s := s.cores.foldl (fun s c => c.2.groups.foldl (fun s g =>
    if g.2.trapWaits.isEmpty ∨ (s.ctx g.2.ctx).state ≠ .resident then s else s.trapProgress c.1 g.1) s) s
  let s := s.barriersDue.nearsReach
  let s : State := { s with cores := s.cores.map (fun c => if c.2.matrix.running.isSome then (c.1, c.2.feed (s.clockOf c.1)) else c) }
  { s with cores := s.cores.map (fun c => (c.1, c.2.pruneBarnWait)) }

/-- Engines of cores that are away. -/
def State.awayEngines (s : State) : List Nat := ((s.cores.filter (fun c => 512 ≤ c.1 && !c.2.copies.isEmpty)).map (fun c => c.1 / 4)).eraseDups

/-- What waits to be sent is sent where it may be (R388, R389, R413). -/
def State.pump (s : State) : State :=
  let s := s.drainOutbox.sendAtts
  let s := s.awayEngines.foldl (fun s e => s.sendHeld e) s
  let s := s.allSteps.foldl (fun s y =>
    match s.stepAt y.1 y.2.1 with
    | none => s
    | some x =>
      let s := s.sendStepData y.1 y.2.1 x
      match s.stepAt y.1 y.2.1 with
      | some x => s.sendOut y.1 y.2.1 x
      | none => s) s
  s.qps.foldl (fun s q => if q.2.out.any (fun r => r.psn.isNone && r.hold.isNone) then s.netStart q.1 else s) s

/-- The save areas of saved contexts follow what is outstanding (R339, R341). -/
def State.refreshPend (s : State) : State :=
  s.ctxs.foldl (fun s e =>
    if e.2.state = .saved then
      let p := e.2.save
      if leNat (s.tierRead e.1 (ptrWithOff p (ptrOff p + 24)) 4).1 = (s.arrivals e.1).length then s else s.writeSave e.1
    else s) s

/-! ### What is due -/

/-- Registers of a held copy are FULL. -/
def State.marksFull (s : State) (c : Copy) : Bool := c.marks.all (fun m => s.feAt c.ctx m.1 m.2.1 m.2.2.1 == .full)

/-- Events of groups. -/
def State.dueGroup (s : State) (core : Nat) (g : Nat × Group) : List Instr :=
  (if g.2.ended then [Instr.groupEnd core g.1] else []) ++
  g.2.recs.flatMap (fun q =>
    match q.2.state with
    | .running => if q.2.matFaults.isEmpty then [] else [.matcheckFaultDelivery core g.1 q.1]
    | .parked =>
      if q.2.woken then (if (s.ctx g.2.ctx).state = .resident then [.parkWake core g.1 q.1] else [])
      else if q.2.reason = 10 ∧ q.2.obj = 0xE3 ∧ q.2.answer = none then [.launchEnqueue core g.1 q.1] else []
    | _ => [])

/-- Each lane of the access waits for an answer of another module (R385). -/
def State.allAsked (s : State) (core id : Nat) (a : Access) : Bool :=
  let asks := s.upper.filter (fun e => e.2.core == core && e.2.acc == id)
  (!a.lanes.isEmpty && a.lanes.all (fun l => s.lower.any (fun r => r.2.core == core && r.2.kind == .att id l.lane))) ||
    (!asks.isEmpty && asks.all (fun e => e.2.answer.isNone))

/-- Accesses of a core that are due, of one turn. -/
def State.dueAccs (s : State) (turn core : Nat) (k : Core) : List Instr :=
  (k.accs.filter (fun a => a.2.turn == turn && decide (a.2.due ≤ s.clockOf core) &&
    (a.2.performed || (!a.2.held && !s.allAsked core a.1 a.2 && !k.accessBlocked a.1 a.2)))).map (fun a => Instr.longLatencyResult core a.1)

/-- Accesses of every core that are due, of one turn. -/
def State.accsDue (s : State) (turn : Nat) : List Instr := s.cores.flatMap (fun c => s.dueAccs turn c.1 c.2)

/-- Events of the copies that a core holds. -/
def State.dueCopies (s : State) (core : Nat) (k : Core) : List Instr :=
  k.copies.flatMap (fun c =>
    (if c.2.waitDrain && c.2.hold.isNone && decide (core < 512) then [Instr.snapshotClaim core c.1] else []) ++
    (if c.2.waitFull && s.marksFull c.2 then [.copyHoldRelease core c.1] else []) ++
    (if c.2.flying.any (fun f => !f.held && f.tags.isEmpty) then [.copyLineAck core c.1 .done] else []))

/-- Events of the other operations that a core holds. -/
def State.dueOps (s : State) (core : Nat) (k : Core) : List Instr :=
  (k.nears.filter (fun n => s.nearReady core n.1 n.2)).map (fun n => .mmvResultsReturn core n.1 false) ++
  k.steps.flatMap (fun x =>
    (if x.2.results.isNone && x.2.deadline.toNat ≤ s.ptime.toNat && !s.frozen x.2.ctx then [Instr.stepDeadline core x.1] else []) ++
    (if x.2.mine.isNone && x.2.hold.isNone && s.stepTurn x.2 then [.stepPair core x.1] else []) ++
    (if x.2.ready then [.stepResultsFormed core x.1] else []) ++
    (match x.2.hold, s.nextOut core x.2 with
      | none, some (_, _, none) => [.stepOutAck core x.1 .done]
      | _, _ => []))

/-- Events of a core of the module that come after its words. -/
def State.dueHere (s : State) (core : Nat) (k : Core) : List Instr :=
  (match k.matrix.running with
    | some op => if op.ends ≤ s.clockOf core then [Instr.matrixOpEnd core] else []
    | none => []) ++
  (if (s.startable core).isSome then [Instr.matrixOpStart core []] else []) ++
  (k.bins.filter (fun b => b.2.due ≤ s.clockOf core)).map (fun b => .binTimerExpiry core b.1) ++
  k.groups.flatMap (s.dueGroup core) ++
  (k.teams.filter (fun t => !t.2.waiting && k.teamEmpty t.1)).map (fun t => .teamEnd core t.1) ++
  (if k.launchList.isEmpty then [] else [.binGroupLaunch core])

/-- What a core counts in its own cycles comes in those of the clusters listed. -/
def State.dueCores (s : State) (on : List Nat) : List Instr :=
  s.cores.flatMap (fun c => if c.1 < 512 ∧ on.contains (c.1 / 32) then s.dueHere c.1 c.2 else [])

/-- Allocators with lines to pin: after everything that may spill in the cycle (R16). -/
def State.duePins (s : State) (on : List Nat) : List Instr :=
  (s.cores.filter (fun c => c.1 < 512 && on.contains (c.1 / 32) && c.2.toPin != 0)).map (fun c => .scratchPin c.1)

/-- Copy engines with an operation to issue or to send, in cycles of their clusters. -/
def State.dueEngines (s : State) (on : List Nat) : List Instr :=
  (((s.cores.filter (fun c => c.2.copies.any (fun x =>
      ((c.1 < 512 || x.2.draining) && !x.2.todo.isEmpty) || (x.2.hold.isNone && x.2.flying.any FlyOp.held)))).map
    (fun c => s.servedBy c.1)).filter (fun c => on.contains (c / 32))).map (fun c => c / 4) |>.eraseDups.map Instr.engineArbitrationRound

/-- Events of contexts: saves, restores, ends, arrivals of what is away, resume words. -/
def State.dueCtx (s : State) (x : Nat) : List Instr :=
  let c := s.ctx x
  (match c.state with
    | .saving => if s.teamsStopped x then [Instr.preemptSave x] else []
    | .saved => if c.rreq then [.contextRestore x] else []
    | .restoring => [.contextRestore x]
    | .ending => [.contextFree x]
    | _ => []) ++
  (if c.away then (List.range (s.arrivals x).length).reverse.map (fun i => .savedArrival x i) else []) ++
  (if s.resumes x false [0, 1] then [.resumeReissue x] else if s.resumes x false [2] then [.resumeDeliverTrap x]
    else if s.resumes x false [3] then [.resumeEndLanes x] else if s.resumes x true [0, 1] then [.resumeEngineRetry x]
    else if s.resumes x true [2, 3] then [.resumeEngineEnd x] else [])

/-- Events of the scheduler. -/
def State.dueScheduler (s : State) : List Instr :=
  s.queues.flatMap (fun q =>
    if !s.queueLive q.2 then []
    else
      (match s.queueWord q.2.ctx.toNat q.2.qptr 128 with
        | .ok (t, _) => if t = q.2.tail then [] else [Instr.schedulerTailReread q.1]
        | .error _ => []) ++
      (match s.launches.find? (fun e => e.2.queue = q.1 ∧ e.2.state ≠ .admitted) with
        | some (_, l) => if l.state = .waitingDeps ∧ (s.depsMet l).1 then [.launchDispatch q.1] else []
        | none => if q.2.next < q.2.tail then [.launchDispatch q.1] else [])) ++
  (if s.servedLaunches.isEmpty then [] else [.teamAdmit]) ++
  (s.launches.filter (fun l => l.2.state = .admitted ∧ l.2.live = 0 ∧ s.launchQuiet l.1)).map (fun l => .launchComplete l.1)

/-- Events of a router under a sweep. -/
def State.dueSweeps (s : State) (r : Nat) (x : Router) : List Instr :=
  (match s.gang with
    | some g => if g.op = 0 ∧ g.began then
        (x.inputs.filter (fun e => e.1 % 7 < 3 ∧ e.2.any (fun p => p.job = g.job))).map (fun e => Instr.sweepPacket r (e.1 / 7) (e.1 % 7))
      else []
    | none => []) ++
  x.sweeps.flatMap (fun w =>
    (if linkLimit ≤ s.time - w.start then
        ((List.range 30).filter (fun k => !w.closed.contains k)).map (fun k => Instr.sweepTimeout r (k / 3) (k % 3))
      else []) ++
    (w.late.filter (fun e => !e.2.isEmpty)).map (fun e => .latePacket r (e.1 / 7) (e.1 % 7)))

/-- Events of the span routers. -/
def State.dueRouters (s : State) : List Instr :=
  s.routers.flatMap (fun r =>
    (r.2.inputs.filter (fun e => (r.2.nextPacket (e.1 / 7) (e.1 % 7)).isSome)).map (fun e => Instr.packetRoute r.1 (e.1 / 7) (e.1 % 7)) ++
    (r.2.ports.filter (fun p => p.2.st = 1 ∧ linkLimit ≤ s.time - p.2.since)).map (fun p => .portTrainingTimeout r.1 p.1) ++
    s.dueSweeps r.1 r.2)

/-- Events of the gang queue. -/
def State.dueGang (s : State) : List Instr :=
  match s.gang with
  | none => if s.gangHead < s.gangTail then [.gangSwitchOut, .gangQuiesce, .gangRestore] else []
  | some g =>
    if g.op = 1 then [.gangRestore] else if g.began then [.switchOutDone] else [.gangStart]

/-- Queue pairs that have waited too long for an answer (R415). -/
def State.dueNet (s : State) : List Instr :=
  (s.qps.filter (fun q => q.2.valid && q.2.st == 1 && q.2.late s.ptime)).map (fun q => .rdmaResendTimeout q.1)

/-- Events of memory: moves, the translation fence, contention flags. -/
def State.dueMemory (s : State) : List Instr :=
  (s.migs.filter (fun e => e.2.en && !e.2.mode && decide (e.2.ptr < e.2.lines))).map (fun e => Instr.moveLineCopy (e.1 / 8) (e.1 % 8)) ++
  (if s.tseq ≠ s.tdone ∧ s.fenceDone then [.tdoneUpdate] else []) ++
  (if s.qps.any (fun q => q.2.pending.any (fun r => holdStops r.hold == [0])) then [.translationRetry 0] else []) ++
  (s.dir.filter (fun e => e.2.contended ∧ contentionWindow ≤ s.time - e.2.lastMove)).map (fun e => .contentionExpiry ⟨e.1, paModule (e.1 * 128)⟩)

/-- Lower-deck requests at their deadline: whether what each asked for has been performed is a free value (R386). -/
def State.timeouts (s : State) : State :=
  (s.lower.filter (fun r => r.2.sent.isSome && decide (r.2.deadline.toNat ≤ s.ptime.toNat) && !s.frozen r.2.ctx)).foldl (fun s r =>
    let (v, s) := s.free
    s.enqueue [.fabricTimeout r.1 (v.getLsbD 0)]) s

/-- What is due before the words of a cycle: writes of the engines; the routers, whose completions come before new requests (R394);
then accesses and results, which remain over the engines' writes (R108, R233, R279). -/
def State.dueFirst (s : State) (on : List Nat) : List Instr :=
  s.cores.flatMap (fun c => s.dueCopies c.1 c.2) ++ s.dueRouters ++ s.dueEngines on ++ s.cores.flatMap (fun c => s.dueOps c.1 c.2) ++ s.accsDue 0

/-- What is due after the words and the releases of a cycle, in a fixed order. -/
def State.dueLast (s : State) (on : List Nat) : List Instr :=
  s.accsDue 2 ++ tickEvents s.time ++ s.dueCores on ++ (s.ctxs.map Prod.fst).flatMap s.dueCtx ++ s.dueScheduler ++ s.dueGang ++
    s.dueNet ++ s.dueMemory ++ s.duePins on

/-! ### The choice of words (R241, R242) -/

/-- Pipes of a partition. -/
def pipeCount : Nat := 2

/-- Free pipes of a partition, ascending (R241, R242). -/
def Core.freePipes (k : Core) (part now : Nat) : List Nat := (List.range pipeCount).filter (fun p => tabGet 0 k.pipes (2 * part + p) ≤ now)

/-- ChooseGroup (R241) among ready groups not taken: the group, and the partition's state. -/
def chooseGroup (p : Partition) (rdy : List (Nat × Group)) : Option ((Nat × Group) × Partition) :=
  match oldest (rdy.filter (fun g => starved ≤ g.2.wait)) with
  | some g => some (g, p)
  | none =>
    match rdy.find? (fun g => p.greedy = some g.1) with
    | some g => some (g, p)
    | none =>
      let c := rdy.filter (fun g => p.yielded != some g.1)
      (oldest (if c.isEmpty then rdy else c)).map (fun g => (g, ⟨some g.1, none⟩))

/-- The words that a partition issues, each with its pipe: group slots and records in order, the groups taken, and its state.
Each group comes with its ready records. -/
def fillPipes : Nat → Partition → List ((Nat × Group) × List Nat) → List Nat → List (Nat × Nat × Nat) × List Nat × Partition
  | 0, p, _, _ => ([], [], p)
  | fuel + 1, p, rdy, pipes =>
    if pipes.isEmpty then ([], [], p)
    else
      match chooseGroup p (rdy.map Prod.fst) with
      | none => ([], [], p)
      | some (g, p) =>
        let recs := (((rdy.find? (fun e => e.1.1 = g.1)).map Prod.snd).getD []).zip pipes
        let (ws, ts, p) := fillPipes fuel p (rdy.filter (fun e => e.1.1 != g.1)) (pipes.drop recs.length)
        (recs.map (fun i => (i.2, g.1, i.1)) ++ ws, g.1 :: ts, p)

/-- A record's next word is bound for the uniform unit. -/
def State.uniformNext (s : State) (r : IssueRef) : Bool := ((s.peekWord r).map isUniformWord).getD false

/-- The order in which partitions are served by the uniform unit. -/
def uniOrder (last : Nat) : List Nat := (List.range 4).map (fun i => (last + 1 + i) % 4)

/-- Lanes of Active of a record's next word. -/
def State.activeNext (s : State) (r : IssueRef) : Nat :=
  match s.group r.core r.slot, s.peekWord r with
  | some g, some i => laneCount ((g.prec r.prec).lanes &&& g.guardMask (guardOf i))
  | _, _ => 0

/-- Of the words that want the uniform unit, the one that has it: of the partition served first the first group chosen, and
of that group's two paths the one with more Active lanes, path 0 on a tie (R108, R242). -/
def State.uniformWinner (s : State) (order : List Nat) (uni : List (Nat × IssueRef)) : Option (Nat × IssueRef) :=
  match (order.flatMap (fun p => uni.filter (fun w => w.1 = p))).head? with
  | none => none
  | some w =>
    match uni.filter (fun x => x.2.slot = w.2.slot && x.2.prec != w.2.prec) with
    | [] => some w
    | x :: _ =>
      let a := s.activeNext w.2
      let b := s.activeNext x.2
      some (if a < b ∨ (a = b ∧ x.2.prec < w.2.prec) then x else w)

/-- Where two words of one group meet in a cycle: a MOVX to x.faultaddr or x.faultcode before a fault of the other path
(R155), and one to x.seed after what the other path draws (R53, R126). -/
def wordTurn : Option Instr → Nat
  | some (.movx f) => if f.d = 0x0C ∨ f.d = 0x0D then 0 else if f.d = 0x0F then 2 else 1
  | _ => 1

/-- `a` is performed before `b` in one cycle: ascending slot, then the turn of its word, then the path of select bit 0
(R155, R192, R259, R433). -/
def State.wordBefore (s : State) (a b : IssueRef) : Bool :=
  let ta := wordTurn (s.peekWord a)
  let tb := wordTurn (s.peekWord b)
  if a.slot ≠ b.slot then a.slot < b.slot else if ta ≠ tb then ta < tb else a.prec < b.prec

/-- Insert a word in that order. -/
def State.insertWord (s : State) (a : IssueRef) : List IssueRef → List IssueRef
  | [] => [a]
  | b :: bs => if s.wordBefore a b then a :: b :: bs else b :: s.insertWord a bs

/-- One partition's choice on a core: pipes with slots and records, the groups taken, the groups ready, and its state. -/
def State.choosePart (s : State) (core : Nat) (k : Core) (p : Nat) : List (Nat × Nat × Nat) × List Nat × List Nat × Partition :=
  let rdy := (k.groups.filter (fun g => g.2.part = p)).filterMap (fun g =>
    let rs := s.readyRecs core g
    if rs.isEmpty then none else some (g, rs))
  let (ws, ts, q) := fillPipes pipeCount ((tabFind k.parts p).getD ⟨none, none⟩) rdy (k.freePipes p (s.clockOf core))
  (ws, ts, rdy.map (fun e => e.1.1), q)

/-- A core's choice: the words in the order in which they are performed, by partition first (R192), and the core with its
issue state after it: the pipes that the words hold and when their results may be read. One word a cycle has the uniform
unit; the others that want it retry. -/
def State.chooseCore (s : State) (core : Nat) : List IssueRef × Core :=
  let k := s.core core
  let picks := [0, 1, 2, 3].map (fun p => (p, s.choosePart core k p))
  let words := picks.flatMap (fun e => e.2.1.map (fun w => (e.1, (⟨core, w.2.1, w.2.2⟩ : IssueRef), w.1)))
  let uni := (words.filter (fun w => s.uniformNext w.2.1)).map (fun w => (w.1, w.2.1))
  let won := s.uniformWinner (uniOrder k.uniLast) uni
  let out := words.filter (fun w => !uni.contains (w.1, w.2.1) || won == some (w.1, w.2.1))
  let now := s.clockOf core
  let k := out.foldl (fun k w => s.occupy k w.1 w.2.2 w.2.1 now) k
  let ready := picks.flatMap (fun e => e.2.2.2.1)
  let taken := picks.flatMap (fun e => e.2.2.1)
  ([0, 1, 2, 3].flatMap (fun p => (out.filter (fun w => w.1 = p)).foldl (fun l w => s.insertWord w.2.1 l) []),
    { k with
      parts := picks.foldl (fun t e => if e.2.2.2.1.isEmpty then t else tabPut t e.1 e.2.2.2.2) k.parts
      uniLast := (won.map Prod.fst).getD k.uniLast
      groups := k.groups.map (fun g =>
        if taken.contains g.1 then (g.1, { g.2 with wait := 0 })
        else if ready.contains g.1 then (g.1, { g.2 with wait := g.2.wait + 1 }) else g) })

/-- A word that releases: a FENCE, or an access that releases. -/
def releaseWord (i : Instr) : Bool :=
  match i with
  | .fence _ | .fencesc _ => true
  | i => ((memOpOf i).map (fun o => decide (2 ≤ o.order ∧ o.kind ≠ .read))).getD false

/-- A word that reads with an acquire, which recalls. -/
def acquireWaita : Instr → Bool
  | .waita f => 2 ≤ f.order.toNat
  | _ => false

/-- A core's words in order, those that no release of their own group precedes, and the others. -/
def splitAtRelease : List (IssueRef × Bool) → List Nat → List IssueRef × List (IssueRef × Bool)
  | [], _ => ([], [])
  | w :: ws, past =>
    if w.2 ∨ past.contains w.1.slot then
      let (a, b) := splitAtRelease ws (w.1.slot :: past)
      (a, w :: b)
    else
      let (a, b) := splitAtRelease ws past
      (w.1 :: a, b)

/-- Releases of a core's words come after the words of its other groups (R299): first the groups that go on after their own
release, then those whose release is their last word. -/
def releasesLast (ws : List (IssueRef × Bool)) : List IssueRef :=
  let (free, held) := splitAtRelease ws []
  let goes (r : IssueRef) : Bool := held.any (fun w => !w.2 && w.1.slot == r.slot)
  free ++ (held.map Prod.fst).filter goes ++ (held.map Prod.fst).filter (fun r => !goes r)

/-- Every core of a cluster that has a cycle chooses, in ascending core number: its words, those that acquire apart. -/
def State.chooseAll (s : State) (on : List Nat) : State × List IssueRef :=
  s.cores.foldl (fun (acc : State × List IssueRef) c =>
    let s := acc.1
    if 512 ≤ c.1 || c.2.groups.isEmpty || !on.contains (c.1 / 32) then acc
    else
      let (ws, k) := s.chooseCore c.1
      let is (f : Instr → Bool) (r : IssueRef) : Bool := ((s.peekWord r).map f).getD false
      let order := releasesLast (ws.map (fun r => (r, is releaseWord r)))
      ({ (s.setCore c.1 k) with issuing := s.issuing ++ order.filter (fun r => !is acquireWaita r) },
        acc.2 ++ order.filter (is acquireWaita))) (s, [])

/-- A cycle begins: the clocks, what is settled once a cycle, and what comes before the words. -/
def State.beginCycle (s : State) : State :=
  let on := s.ticking
  let s := (s.tick.takeInputs (fun i => !lateInput i)).settleCycle.refreshPend
  let s := (s.ctxs.map Prod.fst).foldl (fun s x => s.tryPreempt x) s
  { (s.enqueue (s.dueFirst on)).timeouts with turn := .words on }

/-- What waits to be sent is sent, after the completions of the cycle (R394); the words of the cycle are chosen; after them come the
releases that are due. -/
def State.wordTime (s : State) (on : List Nat) : State :=
  let s := s.pump
  let late := s.dueLast on
  let (t, acquires) := s.chooseAll on
  { (t.enqueue (s.accsDue 1)) with turn := .rest acquires late }

/-- The words that acquire, what came from outside for memory, and the rest of what is due. -/
def State.endCycle (s : State) (acquires : List IssueRef) (late : List Instr) : State :=
  { ((s.takeInputs lateInput).enqueue late) with issuing := s.issuing ++ acquires, turn := .over }

/-- ISSUE_CYCLE (R241): the next part of a cycle. The order of its parts settles what happens in one cycle (R108, R126, R233,
R279, R299, R361, R376). -/
def execIssueCycle (s : State) : Host.Outcome State Fault Refusal :=
  .next (match s.turn with
    | .over => s.beginCycle
    | .words on => s.wordTime on
    | .rest acquires late => s.endCycle acquires late)

end Sys2Proof.Machine
end

