-- ==== Sys2Proof/Machine/Integer.lean ====
section
/-! DEFINITION. Sys2Proof/Machine/Integer.lean: the integer, logic and immediate instructions (R92–R106). -/

namespace Sys2Proof.Machine

/-! ### Shared forms -/

/-- An instruction of this chapter with a result at the width of TYPE (R92). -/
def intOp (i : Instr) (f : FmtA) (n : Nat) (r : Group → Nat → Word64) (s : State) : Host.Outcome State Fault Refusal :=
  s.compute i f.guard f.d n (f.ty == 0) (fun e l => r e.g l)

/-- Elementwise on A, B and C (R92). -/
def intElems (i : Instr) (f : FmtA) (sat : Bool) (op : Int → Int → Int → Int) (s : State) : Host.Outcome State Fault Refusal :=
  intOp i f (tyRegs f.ty) (fun g l => elementwise f.ty sat op (f.valA g l) (f.valB g l) (f.valC g l)) s

/-- On the raw bits of A and B (R102). -/
def bitsOp (i : Instr) (f : FmtA) (op : Word64 → Word64 → Word64) (s : State) : Host.Outcome State Fault Refusal :=
  intOp i f (tyRegs f.ty) (fun g l => cutType f.ty (op (f.valA g l) (f.valB g l))) s

/-- The lane whose predicate bits a word uses: its own, or the lowest Active one where the word executes once for an s
destination (R29). -/
def carryLane (d : BitVec 8) (act : LaneMask) (lane : Nat) : Nat := if isS d then lowestLane act else lane

/-- A result in D and a bit in the predicate of MOD[9:7] (R94). DESIGN CHOICE (log 192): where D names that predicate too, the carry or
range bit is written last and remains; the spec does not say which does. -/
def intWithPred (i : Instr) (f : FmtA) (r : Iss → Nat → Word64) (bit : Iss → Nat → Bool) (s : State) :
    Host.Outcome State Fault Refusal :=
  s.issue i f.guard always always (fun e s => s.result e (fun g =>
    (g.write f.d (tyRegs f.ty) (f.ty == 0) e.act (r e)).setPred (fieldOf f.mod 7 3) e.act
      (maskOf ((lanesOf e.act).filter (fun l => bit e (carryLane f.d e.act l))))))

/-- Carry-in or borrow-in of a lane. -/
def carryIn (f : FmtA) (e : Iss) (lane : Nat) : Int := if e.g.bitOf f.c (carryLane f.d e.act lane) then 1 else 0

/-- The exact sum of IADDC or difference of ISUBB. -/
def carrySum (f : FmtA) (sub : Bool) (e : Iss) (lane : Nat) : Int :=
  carryExact sub (elem (f.valA e.g lane) 0 f.ty) (elem (f.valB e.g lane) 0 f.ty) (carryIn f e lane)

/-- IADDC and ISUBB. -/
def carryOp (i : Instr) (f : FmtA) (sub : Bool) (s : State) : Host.Outcome State Fault Refusal :=
  intWithPred i f (fun e l => BitVec.ofNat 64 (lowBits (elemWidth f.ty) (carrySum f sub e l)))
    (fun e l => carryOut sub (elemWidth f.ty) (carrySum f sub e l)) s

/-- IADDS and ISUBS. -/
def rangeOp (i : Instr) (f : FmtA) (op : Int → Int → Int) (s : State) : Host.Outcome State Fault Refusal :=
  intWithPred i f (fun e l => elementwise f.ty f.sat (fun x y _ => op x y) (f.valA e.g l) (f.valB e.g l) 0)
    (fun e l => anyOutOfRange f.ty op (f.valA e.g l) (f.valB e.g l)) s

/-- An immediate instruction (R106). -/
def immOp (i : Instr) (f : FmtI) (d : BitVec 8) (r : Word64 → Word64 → Word64) (s : State) : Host.Outcome State Fault Refusal :=
  s.compute i f.guard d (tyRegs f.ty) (f.ty == 0) (fun e l => r (e.g.read f.a (tyRegs f.ty) l) (immValue f.ty f.imm))

/-! ### Arithmetic (R93–R97) -/

/-- IADD (R93). -/
def execIadd (f : FmtA) (s : State) : Host.Outcome State Fault Refusal :=
  intElems (.iadd f) f f.sat (fun x y _ => x + y) s

/-- IADDC (R94). -/
def execIaddc (f : FmtA) (s : State) : Host.Outcome State Fault Refusal :=
  carryOp (.iaddc f) f false s

/-- IADDS (R94). -/
def execIadds (f : FmtA) (s : State) : Host.Outcome State Fault Refusal :=
  rangeOp (.iadds f) f (fun x y => x + y) s

/-- ISUB (R93). -/
def execIsub (f : FmtA) (s : State) : Host.Outcome State Fault Refusal :=
  intElems (.isub f) f f.sat (fun x y _ => x - y) s

/-- ISUBB (R94). -/
def execIsubb (f : FmtA) (s : State) : Host.Outcome State Fault Refusal :=
  carryOp (.isubb f) f true s

/-- ISUBS (R94). -/
def execIsubs (f : FmtA) (s : State) : Host.Outcome State Fault Refusal :=
  rangeOp (.isubs f) f (fun x y => x - y) s

/-- IMUL (R93). -/
def execImul (f : FmtA) (s : State) : Host.Outcome State Fault Refusal :=
  intElems (.imul f) f f.sat (fun x y _ => x * y) s

/-- IMULH (R95). -/
def execImulh (f : FmtA) (s : State) : Host.Outcome State Fault Refusal :=
  intOp (.imulh f) f (tyRegs f.ty) (fun g l => mulHigh f.ty (f.valA g l) (f.valB g l)) s

/-- IMAD (R93). -/
def execImad (f : FmtA) (s : State) : Host.Outcome State Fault Refusal :=
  intElems (.imad f) f f.sat (fun x y z => x * y + z) s

/-- IMADW (R96). -/
def execImadw (f : FmtA) (s : State) : Host.Outcome State Fault Refusal :=
  intOp (.imadw f) f 2 (fun g l => madWide f.ty f.sat (g.read f.a 1 l) (g.read f.b 1 l) (g.read f.c 2 l)) s

/-- IDOT4 (R97). -/
def execIdot4 (f : FmtA) (s : State) : Host.Outcome State Fault Refusal :=
  intOp (.idot4 f) f 1 (fun g l => dotInt f.ty (f.mod.getLsbD 7) f.sat (g.read f.a 1 l) (g.read f.b 1 l) (g.read f.c 1 l)) s

/-- IDOT2 (R97). -/
def execIdot2 (f : FmtA) (s : State) : Host.Outcome State Fault Refusal :=
  intOp (.idot2 f) f 1 (fun g l => dotInt f.ty (f.mod.getLsbD 7) f.sat (g.read f.a 1 l) (g.read f.b 1 l) (g.read f.c 1 l)) s

/-- IABS (R93). -/
def execIabs (f : FmtA) (s : State) : Host.Outcome State Fault Refusal :=
  intElems (.iabs f) f f.sat (fun x _ _ => (x.natAbs : Int)) s

/-- INEG (R93). -/
def execIneg (f : FmtA) (s : State) : Host.Outcome State Fault Refusal :=
  intElems (.ineg f) f f.sat (fun x _ _ => -x) s

/-- IMIN (R93). -/
def execImin (f : FmtA) (s : State) : Host.Outcome State Fault Refusal :=
  intElems (.imin f) f false (fun x y _ => min x y) s

/-- IMAX (R93). -/
def execImax (f : FmtA) (s : State) : Host.Outcome State Fault Refusal :=
  intElems (.imax f) f false (fun x y _ => max x y) s

/-- IAVG (R93). -/
def execIavg (f : FmtA) (s : State) : Host.Outcome State Fault Refusal :=
  intElems (.iavg f) f false (fun x y _ => avg (f.mod.getLsbD 7) x y) s

/-! ### Compare and select (R98, R99) -/

/-- ICMP (R98). -/
def execIcmp (f : FmtA) (s : State) : Host.Outcome State Fault Refusal :=
  intOp (.icmp f) f (tyRegs f.ty) (fun g l => cmpInt f.ty (fieldOf f.mod 7 3) (f.valA g l) (f.valB g l)) s

/-- ISEL (R99). -/
def execIsel (f : FmtA) (s : State) : Host.Outcome State Fault Refusal :=
  s.compute (.isel f) f.guard f.d (tyRegs f.ty) (f.ty == 0)
    (fun e l => if e.g.bitOf f.c (carryLane f.d e.act l) then f.valA e.g l else f.valB e.g l)

/-! ### Bit operations (R100–R104) -/

/-- IPOPC (R100). -/
def execIpopc (f : FmtA) (s : State) : Host.Outcome State Fault Refusal :=
  intOp (.ipopc f) f 1 (fun g l => countElems f.ty (popCount (elemWidth f.ty)) (f.valA g l)) s

/-- ICLZ (R100). -/
def execIclz (f : FmtA) (s : State) : Host.Outcome State Fault Refusal :=
  intOp (.iclz f) f 1 (fun g l => countElems f.ty (clz (elemWidth f.ty) (tySigned f.ty)) (f.valA g l)) s

/-- IBREV (R100). -/
def execIbrev (f : FmtA) (s : State) : Host.Outcome State Fault Refusal :=
  intOp (.ibrev f) f (tyRegs f.ty) (fun g l => BitVec.ofNat 64 (bitRev (elemWidth f.ty) (f.valA g l).toNat)) s

/-- IBFX (R101). -/
def execIbfx (f : FmtA) (s : State) : Host.Outcome State Fault Refusal :=
  intOp (.ibfx f) f (tyRegs f.ty) (fun g l => bitExtract f.ty (f.valA g l) (g.read f.b 1 l)) s

/-- IBFI (R101). -/
def execIbfi (f : FmtA) (s : State) : Host.Outcome State Fault Refusal :=
  intOp (.ibfi f) f (tyRegs f.ty) (fun g l => bitInsert f.ty (f.valA g l) (f.valB g l) (g.read f.c 1 l)) s

/-- AND (R102). -/
def execBitAnd (f : FmtA) (s : State) : Host.Outcome State Fault Refusal :=
  bitsOp (.bitAnd f) f (fun x y => x &&& y) s

/-- OR (R102). -/
def execBitOr (f : FmtA) (s : State) : Host.Outcome State Fault Refusal :=
  bitsOp (.bitOr f) f (fun x y => x ||| y) s

/-- XOR (R102). -/
def execBitXor (f : FmtA) (s : State) : Host.Outcome State Fault Refusal :=
  bitsOp (.bitXor f) f (fun x y => x ^^^ y) s

/-- NOT (R102). -/
def execBitNot (f : FmtA) (s : State) : Host.Outcome State Fault Refusal :=
  bitsOp (.bitNot f) f (fun x _ => ~~~x) s

/-- ANDN (R102). -/
def execAndn (f : FmtA) (s : State) : Host.Outcome State Fault Refusal :=
  bitsOp (.andn f) f (fun x y => x &&& ~~~y) s

/-- SHL (R103). -/
def execShl (f : FmtA) (s : State) : Host.Outcome State Fault Refusal :=
  intOp (.shl f) f (tyRegs f.ty) (fun g l => shlInt f.ty f.sat (f.valA g l) (f.valB g l)) s

/-- SHR (R103). -/
def execShr (f : FmtA) (s : State) : Host.Outcome State Fault Refusal :=
  intOp (.shr f) f (tyRegs f.ty) (fun g l => shrInt f.ty (f.valA g l) (f.valB g l)) s

/-- SRA (R103). -/
def execSra (f : FmtA) (s : State) : Host.Outcome State Fault Refusal :=
  intOp (.sra f) f (tyRegs f.ty) (fun g l => sraInt f.ty (f.valA g l) (f.valB g l)) s

/-- ROTL (R103). -/
def execRotl (f : FmtA) (s : State) : Host.Outcome State Fault Refusal :=
  intOp (.rotl f) f (tyRegs f.ty) (fun g l => rotlInt f.ty (f.valA g l) (f.valB g l)) s

/-- FSHL (R103). -/
def execFshl (f : FmtA) (s : State) : Host.Outcome State Fault Refusal :=
  intOp (.fshl f) f (tyRegs f.ty) (fun g l => funnel f.ty (f.valA g l) (f.valB g l) (g.read f.c 1 l)) s

/-- PERM (R104). -/
def execPerm (f : FmtA) (s : State) : Host.Outcome State Fault Refusal :=
  intOp (.perm f) f 1 (fun g l => permBytes (g.read f.a 1 l) (g.read f.b 1 l) (g.read f.c 1 l)) s

/-- LEA (R105). -/
def execLea (f : FmtA) (s : State) : Host.Outcome State Fault Refusal :=
  intOp (.lea f) f 2 (fun g l => leaPtr (fieldOf f.mod 7 3) (g.read f.a 2 l) (g.read f.b 1 l)) s

/-! ### Immediate forms (R106) -/

/-- IADDI (R106). -/
def execIaddi (f : FmtI) (s : State) : Host.Outcome State Fault Refusal :=
  immOp (.iaddi f) f f.d (fun x y => elementwise f.ty false (fun a b _ => a + b) x y 0) s

/-- IMULI (R106). -/
def execImuli (f : FmtI) (s : State) : Host.Outcome State Fault Refusal :=
  immOp (.imuli f) f f.d (fun x y => elementwise f.ty false (fun a b _ => a * b) x y 0) s

/-- ANDI (R106). -/
def execAndi (f : FmtI) (s : State) : Host.Outcome State Fault Refusal :=
  immOp (.andi f) f f.d (fun x y => cutType f.ty (x &&& y)) s

/-- ORI (R106). -/
def execOri (f : FmtI) (s : State) : Host.Outcome State Fault Refusal :=
  immOp (.ori f) f f.d (fun x y => cutType f.ty (x ||| y)) s

/-- XORI (R106). -/
def execXori (f : FmtI) (s : State) : Host.Outcome State Fault Refusal :=
  immOp (.xori f) f f.d (fun x y => cutType f.ty (x ^^^ y)) s

/-- SHLI (R106). -/
def execShli (f : FmtI) (s : State) : Host.Outcome State Fault Refusal :=
  immOp (.shli f) f f.d (fun x y => shlInt f.ty false x y) s

/-- SHRI (R106). -/
def execShri (f : FmtI) (s : State) : Host.Outcome State Fault Refusal :=
  immOp (.shri f) f f.d (fun x y => shrInt f.ty x y) s

/-- SRAI (R106). -/
def execSrai (f : FmtI) (s : State) : Host.Outcome State Fault Refusal :=
  immOp (.srai f) f f.d (fun x y => sraInt f.ty x y) s

/-- ICMPI (R106): D[2:0] names the predicate and D[5:3] the condition. -/
def execIcmpi (f : FmtI) (s : State) : Host.Outcome State Fault Refusal :=
  immOp (.icmpi f) f (BitVec.ofNat 8 (0xF0 + fieldOf f.d 0 3)) (fun x y => cmpInt f.ty (fieldOf f.d 3 3) x y) s
/-- MOVI (R106). -/
def execMovi (f : FmtI) (s : State) : Host.Outcome State Fault Refusal :=
  s.compute (.movi f) f.guard f.d (tyRegs f.ty) (f.ty == 0) (fun _ _ => immValue f.ty f.imm)

end Sys2Proof.Machine
end

