-- ==== Sys2Proof/Machine/Movement.lean ====
section
/-! DEFINITION. Sys2Proof/Machine/Movement.lean: moves, special registers, cross-lane exchange and predicate logic
(R129–R136). -/

namespace Sys2Proof.Machine

/-- A 32-bit result in the low half of an s register whose upper half no rule states: a free value. -/
def lowHalf (free x : Word64) : Word64 := (free >>> 32 <<< 32) ||| BitVec.ofNat 64 (x.toNat % 2 ^ 32)

/-- Write a result of n registers where the upper half of an s register stays unstated for n = 1. -/
def State.resultRaw (s : State) (e : Iss) (d : BitVec 8) (n : Nat) (r : Nat → Word64) : State :=
  if isS d ∧ n = 1 then
    let (w, s) := s.free
    s.result e (fun g => g.write d 2 false e.act (fun l => lowHalf w (r l)))
  else s.result e (fun g => g.write d n false e.act r)

/-- MOV (R129). -/
def execMov (f : FmtA) (s : State) : Host.Outcome State Fault Refusal :=
  s.issue (.mov f) f.guard always always (fun e s => s.resultRaw e f.d (tyRegs f.ty) (fun l => f.valA e.g l))

/-! ### Special registers (R35, R36, R130, R131) -/

/-- x.team of a linear team position in a grid (R36, R333): X runs fastest. -/
def teamPosition (grid : Word64) (pos : Nat) : Word64 :=
  let ex := fieldOf grid 0 32 + 1
  let ey := fieldOf grid 32 16 + 1
  BitVec.ofNat 64 (pos % ex % 2 ^ 32 + pos / ex % ey % 2 ^ 16 * 2 ^ 32 + pos / ex / ey % 2 ^ 16 * 2 ^ 48)

/-- The value of a special register in a lane (R35). -/
def State.special (s : State) (e : Iss) (i lane : Nat) : Word64 :=
  let c := s.ctx e.g.ctx
  match i with
  | 0x00 => BitVec.ofNat 64 lane
  | 0x01 => BitVec.ofNat 64 (e.prec % 2)
  | 0x02 => BitVec.ofNat 64 e.g.index
  | 0x03 => teamPosition (((tabFind s.launches e.g.launch).map Launch.grid).getD 0) (((tabFind (s.core e.core).teams e.g.team).map Team.pos).getD 0)
  | 0x04 => ((tabFind s.launches e.g.launch).map Launch.grid).getD 0
  | 0x05 => BitVec.ofNat 64 e.g.role
  | 0x06 => BitVec.ofNat 64 (logCore c.cmap e.core)
  | 0x07 => BitVec.ofNat 64 (logCore c.cmap e.core / 32)
  | 0x08 => s.moduleId.zeroExtend 64
  | 0x09 => tabGet 0 s.clocks (e.core / 32)
  | 0x0A => s.ptime
  | 0x0B => (s.systemTicks.zeroExtend 64 <<< 32) ||| s.deviceTicks.zeroExtend 64
  | 0x0C => e.g.faultaddr
  | 0x0D => e.g.faultcode
  | 0x0E => e.g.mstat
  | 0x0F => e.g.seed
  | 0x10 => c.cos.zeroExtend 64
  | 0x11 => BitVec.ofNat 64 e.g.ctx
  | 0x12 => c.job.zeroExtend 64
  | _ => 0

/-- MOVS (R130). -/
def execMovs (f : FmtA) (s : State) : Host.Outcome State Fault Refusal :=
  s.issue (.movs f) f.guard always always (fun e s =>
    s.result e (fun g => g.write f.d (if f.ty = 3 then 2 else 1) false e.act (fun l => s.special e f.b.toNat l)))

/-- x.mstat after a MOVX: DET and COR take the value, a 1 in bit 63 clears PEND (R36, R131). -/
def mstatWrite (old x : Word64) : Word64 :=
  BitVec.ofNat 64 (fieldOf x 0 32 + (if old.getLsbD 63 && !x.getLsbD 63 then 2 ^ 63 else 0))

/-- A MOVX write: RO registers and RES0 bits ignore it. -/
def Group.writeSpecial (g : Group) (i : Nat) (x : Word64) : Group :=
  match i with
  | 0x0C => { g with faultaddr := x }
  | 0x0D => { g with faultcode := BitVec.ofNat 64 (fieldOf x 0 15) }
  | 0x0E => { g with mstat := mstatWrite g.mstat x }
  | 0x0F => { g with seed := x, gens := seedAll x }
  | _ => g

/-- MOVX (R131). -/
def execMovx (f : FmtA) (s : State) : Host.Outcome State Fault Refusal :=
  s.issue (.movx f) f.guard always always (fun e s =>
    s.result e (fun g => g.writeSpecial f.d.toNat (e.g.read f.a 2 (lowestLane e.act))))

/-! ### Exchange (R132–R135) -/

/-- Segment width of MOD[12:10]. -/
def segWidth (code : Nat) : Nat := 32 >>> code

/-- SourcePosition of R132 for position j of a segment. -/
def shufflePos (mode j : Nat) (b : Word64) (w : Nat) : Option Nat :=
  let u := fieldOf b 0 32
  let x : Int := signedOf 32 u
  match mode with
  | 0 => some (u % w)
  | 4 => some (u % w)
  | 2 => some (((j : Int) - x) % (w : Int)).toNat
  | 3 => some (j ^^^ (u % w))
  | _ => if 0 ≤ (j : Int) - x ∧ (j : Int) - x < w then some ((j : Int) - x).toNat else none

/-- What SHFL gives a lane. -/
def shuffle (f : FmtA) (e : Iss) (lane : Nat) : Word64 :=
  let w := segWidth (fieldOf f.mod 10 3)
  let mode := fieldOf f.mod 7 3
  let j := lane % w
  match shufflePos mode j (e.g.read f.b 1 lane) w with
  | some p => if e.act.getLsbD (lane - j + p) then f.valA e.g (lane - j + p) else if mode = 5 then 0 else f.valA e.g lane
  | none => if mode = 5 then 0 else f.valA e.g lane

/-- SHFL (R132). -/
def execShfl (f : FmtA) (s : State) : Host.Outcome State Fault Refusal :=
  s.compute (.shfl f) f.guard f.d (tyRegs f.ty) false (fun e l => shuffle f e l)

/-- The truth value VOTE reads in a lane. -/
def voteTruth (g : Group) (c : BitVec 8) (lane : Nat) : Bool :=
  if isP c then g.predBit (c.toNat - 0xF0) lane else fieldOf (g.read c 1 lane) 0 32 != 0

/-- The value VOTE writes: a v or s register takes 32 ones for a true condition. -/
def voteValue (f : FmtA) (e : Iss) : Word64 :=
  let mode := fieldOf f.mod 7 3
  let r := voteResult mode (maskOf ((lanesOf e.act).filter (voteTruth e.g f.a))) e.act
  if ¬isP f.d ∧ mode ≤ 2 ∧ r = 1 then 0xFFFFFFFF else BitVec.ofNat 64 r

/-- VOTE (R133). -/
def execVote (f : FmtA) (s : State) : Host.Outcome State Fault Refusal :=
  s.compute (.vote f) f.guard f.d 1 false (fun e _ => voteValue f e)

/-- Active lanes whose value equals a lane's (R134). -/
def peers (f : FmtA) (e : Iss) (lane : Nat) : LaneMask :=
  maskOf ((lanesOf e.act).filter (fun k => cutType f.ty (f.valA e.g k) == cutType f.ty (f.valA e.g lane)))

/-- What MATCH gives a lane. -/
def matchValue (f : FmtA) (e : Iss) (lane : Nat) : Word64 :=
  let m := peers f e lane
  match fieldOf f.mod 7 2 with
  | 0 => m.zeroExtend 64
  | 1 =>
    let all := peers f e (lowestLane e.act) == e.act
    if isP f.d then (if all then 1 else 0) else if all then e.act.zeroExtend 64 else 0
  | 2 => BitVec.ofNat 64 (lowestLane m)
  | _ => BitVec.ofNat 64 ((lanesOf m).filter (· < lane)).length

/-- MATCH (R134). -/
def execMatchLanes (f : FmtA) (s : State) : Host.Outcome State Fault Refusal :=
  s.compute (.matchLanes f) f.guard f.d 1 false (fun e l => matchValue f e l)

/-- Combine of R135 on what may be absent. -/
def combineOpt {α : Type} (c : α → α → α) : Option α → Option α → Option α
  | some a, some b => some (c a b)
  | some a, none => some a
  | none, b => b

/-- FoldRange over 2^k lanes from p. -/
def foldTree {α : Type} (c : α → α → α) (x : Nat → Option α) : Nat → Nat → Option α
  | 0, p => x p
  | k + 1, p => combineOpt c (foldTree c x k p) (foldTree c x k (p + 2 ^ k))

/-- The k of the largest aligned run from p that ends at or before e. -/
def runLog (base p e : Nat) : Nat := ([5, 4, 3, 2, 1].find? (fun k => (p - base) % 2 ^ k = 0 ∧ p + 2 ^ k ≤ e)).getD 0

/-- Prefix of R135; `fuel` bounds the runs. -/
def foldPrefix {α : Type} (c : α → α → α) (x : Nat → Option α) (base e : Nat) : Nat → Nat → Option α → Option α
  | 0, _, acc => acc
  | fuel + 1, p, acc =>
    if e ≤ p then acc
    else
      let k := runLog base p e
      foldPrefix c x base e fuel (p + 2 ^ k) (combineOpt c acc (foldTree c x k p))

/-- The fold of a lane under an operation code. -/
def foldLane {α : Type} (c : α → α → α) (x : Nat → Option α) (op wcode lane : Nat) : Option α :=
  let w := segWidth wcode
  let base := lane - lane % w
  match op with
  | 6 => foldPrefix c x base (lane + 1) 32 base none
  | 7 => foldPrefix c x base lane 32 base none
  | _ => foldTree c x (5 - wcode) base

/-- Combine of R135 for an integer type. -/
def foldInt (op : Nat) (a b : Int) : Int :=
  match op with
  | 1 => min a b
  | 2 => max a b
  | 3 => ((a.toNat &&& b.toNat : Nat) : Int)
  | 4 => ((a.toNat ||| b.toNat : Nat) : Int)
  | 5 => ((a.toNat ^^^ b.toNat : Nat) : Int)
  | _ => a + b

/-- Combine of R135 for f32. -/
def foldF32 (op rnd : Nat) (a b : Nat) : Nat :=
  match op with
  | 1 => minMax f32Fmt false false a b
  | 2 => minMax f32Fmt true false a b
  | _ => f32Fmt.round (roundingOf rnd 0) false (FVal.add (rnd == 2) (f32Fmt.decode a) (f32Fmt.decode b))

/-- What FOLD gives a lane; every lane of an s destination takes the fold of the whole group. -/
def foldValue (f : FmtA) (e : Iss) (lane : Nat) : Word64 :=
  let op := fieldOf f.mod 7 3
  let wcode := fieldOf f.mod 10 3
  let at_ := if isS f.d then 0 else lane
  if f.ty = 8 then
    let x (k : Nat) : Option Nat := if e.act.getLsbD k then some (elemBits (f.valA e.g k) 32 0) else none
    BitVec.ofNat 64 ((foldLane (foldF32 op (fieldOf f.mod 0 3)) x op wcode at_).getD 0)
  else
    let w := elemWidth f.ty
    let raw := 3 ≤ op ∧ op ≤ 5
    let x (k : Nat) : Option Int :=
      if e.act.getLsbD k then some (if raw then (elemBits (f.valA e.g k) w 0 : Int) else elem (f.valA e.g k) 0 f.ty) else none
    BitVec.ofNat 64 (fitBits w (tySigned f.ty) f.sat ((foldLane (foldInt op) x op wcode at_).getD 0))

/-- FOLD (R135). -/
def execFold (f : FmtA) (s : State) : Host.Outcome State Fault Refusal :=
  s.issue (.fold f) f.guard always always (fun e s => s.resultRaw e f.d (tyRegs f.ty) (fun l => foldValue f e l))

/-- PLOP (R136). -/
def execPlop (f : FmtA) (s : State) : Host.Outcome State Fault Refusal :=
  s.issue (.plop f) f.guard always always (fun e s => s.result e (fun g =>
    g.setPred (f.d.toNat - 0xF0) e.act
      (maskOf ((lanesOf e.act).filter (fun l => lutBit (fieldOf f.mod 7 4) (e.g.bitOf f.a l) (e.g.bitOf f.b l))))))

end Sys2Proof.Machine
end

