-- ==== Sys2Proof/Machine/Dispatch.lean ====
section
/-! DEFINITION. Sys2Proof/Machine/Dispatch.lean: one direct call of a meaning for each operation. -/

namespace Sys2Proof.Machine

/-- Execute one operation. -/
def exec (i : Instr) (s : State) : Host.Outcome State Fault Refusal :=
  match i with
  | .nop => Sys2Proof.Machine.execNop s
  | .iadd f => Sys2Proof.Machine.execIadd f s
  | .iaddc f => Sys2Proof.Machine.execIaddc f s
  | .iadds f => Sys2Proof.Machine.execIadds f s
  | .isub f => Sys2Proof.Machine.execIsub f s
  | .isubb f => Sys2Proof.Machine.execIsubb f s
  | .isubs f => Sys2Proof.Machine.execIsubs f s
  | .imul f => Sys2Proof.Machine.execImul f s
  | .imulh f => Sys2Proof.Machine.execImulh f s
  | .imad f => Sys2Proof.Machine.execImad f s
  | .imadw f => Sys2Proof.Machine.execImadw f s
  | .idot4 f => Sys2Proof.Machine.execIdot4 f s
  | .idot2 f => Sys2Proof.Machine.execIdot2 f s
  | .iabs f => Sys2Proof.Machine.execIabs f s
  | .ineg f => Sys2Proof.Machine.execIneg f s
  | .imin f => Sys2Proof.Machine.execImin f s
  | .imax f => Sys2Proof.Machine.execImax f s
  | .iavg f => Sys2Proof.Machine.execIavg f s
  | .icmp f => Sys2Proof.Machine.execIcmp f s
  | .isel f => Sys2Proof.Machine.execIsel f s
  | .ipopc f => Sys2Proof.Machine.execIpopc f s
  | .iclz f => Sys2Proof.Machine.execIclz f s
  | .ibrev f => Sys2Proof.Machine.execIbrev f s
  | .ibfx f => Sys2Proof.Machine.execIbfx f s
  | .ibfi f => Sys2Proof.Machine.execIbfi f s
  | .bitAnd f => Sys2Proof.Machine.execBitAnd f s
  | .bitOr f => Sys2Proof.Machine.execBitOr f s
  | .bitXor f => Sys2Proof.Machine.execBitXor f s
  | .bitNot f => Sys2Proof.Machine.execBitNot f s
  | .andn f => Sys2Proof.Machine.execAndn f s
  | .shl f => Sys2Proof.Machine.execShl f s
  | .shr f => Sys2Proof.Machine.execShr f s
  | .sra f => Sys2Proof.Machine.execSra f s
  | .rotl f => Sys2Proof.Machine.execRotl f s
  | .fshl f => Sys2Proof.Machine.execFshl f s
  | .perm f => Sys2Proof.Machine.execPerm f s
  | .lea f => Sys2Proof.Machine.execLea f s
  | .iaddi f => Sys2Proof.Machine.execIaddi f s
  | .imuli f => Sys2Proof.Machine.execImuli f s
  | .andi f => Sys2Proof.Machine.execAndi f s
  | .ori f => Sys2Proof.Machine.execOri f s
  | .xori f => Sys2Proof.Machine.execXori f s
  | .shli f => Sys2Proof.Machine.execShli f s
  | .shri f => Sys2Proof.Machine.execShri f s
  | .srai f => Sys2Proof.Machine.execSrai f s
  | .icmpi f => Sys2Proof.Machine.execIcmpi f s
  | .movi f => Sys2Proof.Machine.execMovi f s
  | .fadd f => Sys2Proof.Machine.execFadd f s
  | .fsub f => Sys2Proof.Machine.execFsub f s
  | .fmul f => Sys2Proof.Machine.execFmul f s
  | .ffma f => Sys2Proof.Machine.execFfma f s
  | .fmin f => Sys2Proof.Machine.execFmin f s
  | .fmax f => Sys2Proof.Machine.execFmax f s
  | .fminm f => Sys2Proof.Machine.execFminm f s
  | .fmaxm f => Sys2Proof.Machine.execFmaxm f s
  | .fcmp f => Sys2Proof.Machine.execFcmp f s
  | .fclass f => Sys2Proof.Machine.execFclass f s
  | .frcp f => Sys2Proof.Machine.execFrcp f s
  | .frsq f => Sys2Proof.Machine.execFrsq f s
  | .fsqrt f => Sys2Proof.Machine.execFsqrt f s
  | .fdiv f => Sys2Proof.Machine.execFdiv f s
  | .fexp2 f => Sys2Proof.Machine.execFexp2 f s
  | .flog2 f => Sys2Proof.Machine.execFlog2 f s
  | .fsin f => Sys2Proof.Machine.execFsin f s
  | .fcos f => Sys2Proof.Machine.execFcos f s
  | .ftanh f => Sys2Proof.Machine.execFtanh f s
  | .fsigm f => Sys2Proof.Machine.execFsigm f s
  | .frnd f => Sys2Proof.Machine.execFrnd f s
  | .fscale f => Sys2Proof.Machine.execFscale f s
  | .ffrac f => Sys2Proof.Machine.execFfrac f s
  | .fdot2 f => Sys2Proof.Machine.execFdot2 f s
  | .cvt f => Sys2Proof.Machine.execCvt f s
  | .cvtsr f => Sys2Proof.Machine.execCvtsr f s
  | .pack f => Sys2Proof.Machine.execPack f s
  | .unpk f => Sys2Proof.Machine.execUnpk f s
  | .qmx f => Sys2Proof.Machine.execQmx f s
  | .dqmx f => Sys2Proof.Machine.execDqmx f s
  | .mov f => Sys2Proof.Machine.execMov f s
  | .movs f => Sys2Proof.Machine.execMovs f s
  | .movx f => Sys2Proof.Machine.execMovx f s
  | .shfl f => Sys2Proof.Machine.execShfl f s
  | .vote f => Sys2Proof.Machine.execVote f s
  | .matchLanes f => Sys2Proof.Machine.execMatchLanes f s
  | .fold f => Sys2Proof.Machine.execFold f s
  | .plop f => Sys2Proof.Machine.execPlop f s
  | .br f => Sys2Proof.Machine.execBr f s
  | .brd f => Sys2Proof.Machine.execBrd f s
  | .brx f => Sys2Proof.Machine.execBrx f s
  | .call f => Sys2Proof.Machine.execCall f s
  | .callx f => Sys2Proof.Machine.execCallx f s
  | .ret f => Sys2Proof.Machine.execRet f s
  | .loop f => Sys2Proof.Machine.execLoop f s
  | .loopi f => Sys2Proof.Machine.execLoopi f s
  | .lbrk f => Sys2Proof.Machine.execLbrk f s
  | .spawn f => Sys2Proof.Machine.execSpawn f s
  | .winnow f => Sys2Proof.Machine.execWinnow f s
  | .exit f => Sys2Proof.Machine.execExit f s
  | .yield f => Sys2Proof.Machine.execYield f s
  | .ldc f => Sys2Proof.Machine.execLdc f s
  | .stc f => Sys2Proof.Machine.execStc f s
  | .lds f => Sys2Proof.Machine.execLds f s
  | .sts f => Sys2Proof.Machine.execSts f s
  | .ldm f => Sys2Proof.Machine.execLdm f s
  | .stm f => Sys2Proof.Machine.execStm f s
  | .ldw f => Sys2Proof.Machine.execLdw f s
  | .stw f => Sys2Proof.Machine.execStw f s
  | .cctl f => Sys2Proof.Machine.execCctl f s
  | .atc f => Sys2Proof.Machine.execAtc f s
  | .ats f => Sys2Proof.Machine.execAts f s
  | .att f => Sys2Proof.Machine.execAtt f s
  | .fence f => Sys2Proof.Machine.execFence f s
  | .fencesc f => Sys2Proof.Machine.execFencesc f s
  | .tfence f => Sys2Proof.Machine.execTfence f s
  | .waita f => Sys2Proof.Machine.execWaita f s
  | .slinit f => Sys2Proof.Machine.execSlinit f s
  | .binit f => Sys2Proof.Machine.execBinit f s
  | .bexp f => Sys2Proof.Machine.execBexp f s
  | .barv f => Sys2Proof.Machine.execBarv f s
  | .bwait f => Sys2Proof.Machine.execBwait f s
  | .btest f => Sys2Proof.Machine.execBtest f s
  | .tbar f => Sys2Proof.Machine.execTbar f s
  | .gbar f => Sys2Proof.Machine.execGbar f s
  | .qinit f => Sys2Proof.Machine.execQinit f s
  | .qpush f => Sys2Proof.Machine.execQpush f s
  | .qpop f => Sys2Proof.Machine.execQpop f s
  | .qallow f => Sys2Proof.Machine.execQallow f s
  | .cvinit f => Sys2Proof.Machine.execCvinit f s
  | .acalloc f => Sys2Proof.Machine.execAcalloc f s
  | .acfree f => Sys2Proof.Machine.execAcfree f s
  | .mma f => Sys2Proof.Machine.execMma f s
  | .mmasp f => Sys2Proof.Machine.execMmasp f s
  | .mmv f => Sys2Proof.Machine.execMmv f s
  | .mldt f => Sys2Proof.Machine.execMldt f s
  | .mzero f => Sys2Proof.Machine.execMzero f s
  | .mepi f => Sys2Proof.Machine.execMepi f s
  | .tcpy f => Sys2Proof.Machine.execTcpy f s
  | .tcpo f => Sys2Proof.Machine.execTcpo f s
  | .gcpy f => Sys2Proof.Machine.execGcpy f s
  | .scpy f => Sys2Proof.Machine.execScpy f s
  | .wcpy f => Sys2Proof.Machine.execWcpy f s
  | .drain f => Sys2Proof.Machine.execDrain f s
  | .cstep f => Sys2Proof.Machine.execCstep f s
  | .cabort f => Sys2Proof.Machine.execCabort f s
  | .npost f => Sys2Proof.Machine.execNpost f s
  | .launch f => Sys2Proof.Machine.execLaunch f s
  | .trap f => Sys2Proof.Machine.execTrap f s
  | .tret f => Sys2Proof.Machine.execTret f s
  | .brkpt f => Sys2Proof.Machine.execBrkpt f s
  | .pkeyw f => Sys2Proof.Machine.execPkeyw f s
  | .capsub f => Sys2Proof.Machine.execCapsub f s
  | .issueCycle => Sys2Proof.Machine.execIssueCycle s
  | .starvationGuard core part => Sys2Proof.Machine.execStarvationGuard core part s
  | .longLatencyResult core id => Sys2Proof.Machine.execLongLatencyResult core id s
  | .parkWake core slot rec => Sys2Proof.Machine.execParkWake core slot rec s
  | .reconvMerge core slot => Sys2Proof.Machine.execReconvMerge core slot s
  | .reconvLoneResume core slot rec => Sys2Proof.Machine.execReconvLoneResume core slot rec s
  | .binTimerExpiry core bin => Sys2Proof.Machine.execBinTimerExpiry core bin s
  | .binGroupLaunch core => Sys2Proof.Machine.execBinGroupLaunch core s
  | .groupEnd core slot => Sys2Proof.Machine.execGroupEnd core slot s
  | .teamEnd core team => Sys2Proof.Machine.execTeamEnd core team s
  | .matrixOpStart core upsets => Sys2Proof.Machine.execMatrixOpStart core upsets s
  | .matrixOpEnd core => Sys2Proof.Machine.execMatrixOpEnd core s
  | .matcheckFaultDelivery core slot rec => Sys2Proof.Machine.execMatcheckFaultDelivery core slot rec s
  | .mmvResultsReturn core slot uncorrectable => Sys2Proof.Machine.execMmvResultsReturn core slot uncorrectable s
  | .engineArbitrationRound engine => Sys2Proof.Machine.execEngineArbitrationRound engine s
  | .copyLineAck core slot outcome => Sys2Proof.Machine.execCopyLineAck core slot outcome s
  | .copyHoldRelease core slot => Sys2Proof.Machine.execCopyHoldRelease core slot s
  | .launchEnqueue core slot rec => Sys2Proof.Machine.execLaunchEnqueue core slot rec s
  | .deviceTick => Sys2Proof.Machine.execDeviceTick s
  | .systemTick => Sys2Proof.Machine.execSystemTick s
  | .scratchPin core => Sys2Proof.Machine.execScratchPin core s
  | .schedulerTailReread queue => Sys2Proof.Machine.execSchedulerTailReread queue s
  | .launchDispatch queue => Sys2Proof.Machine.execLaunchDispatch queue s
  | .teamAdmit => Sys2Proof.Machine.execTeamAdmit s
  | .launchComplete launch => Sys2Proof.Machine.execLaunchComplete launch s
  | .contextValidate ctx => Sys2Proof.Machine.execContextValidate ctx s
  | .contextEnd ctx => Sys2Proof.Machine.execContextEnd ctx s
  | .contextFree ctx => Sys2Proof.Machine.execContextFree ctx s
  | .preemptRequest ctx => Sys2Proof.Machine.execPreemptRequest ctx s
  | .preemptSave ctx => Sys2Proof.Machine.execPreemptSave ctx s
  | .savedArrival ctx item => Sys2Proof.Machine.execSavedArrival ctx item s
  | .restoreRequest ctx => Sys2Proof.Machine.execRestoreRequest ctx s
  | .contextRestore ctx => Sys2Proof.Machine.execContextRestore ctx s
  | .queueDisable queue => Sys2Proof.Machine.execQueueDisable queue s
  | .configRegisterWrite reg value => Sys2Proof.Machine.execConfigRegisterWrite reg value s
  | .translationWalk die ctx ptr => Sys2Proof.Machine.execTranslationWalk die ctx ptr s
  | .tseqWrite value => Sys2Proof.Machine.execTseqWrite value s
  | .tdoneUpdate => Sys2Proof.Machine.execTdoneUpdate s
  | .resumeReissue ctx => Sys2Proof.Machine.execResumeReissue ctx s
  | .resumeDeliverTrap ctx => Sys2Proof.Machine.execResumeDeliverTrap ctx s
  | .resumeEndLanes ctx => Sys2Proof.Machine.execResumeEndLanes ctx s
  | .resumeEngineRetry ctx => Sys2Proof.Machine.execResumeEngineRetry ctx s
  | .resumeEngineEnd ctx => Sys2Proof.Machine.execResumeEngineEnd ctx s
  | .translationRetry pa => Sys2Proof.Machine.execTranslationRetry pa s
  | .migrationEnable ctl entry => Sys2Proof.Machine.execMigrationEnable ctl entry s
  | .moveLineCopy ctl entry => Sys2Proof.Machine.execMoveLineCopy ctl entry s
  | .migrationDisable ctl entry => Sys2Proof.Machine.execMigrationDisable ctl entry s
  | .homeReadRequest line agent acquire => Sys2Proof.Machine.execHomeReadRequest line agent acquire s
  | .homeOwnershipRequest line agent whole mask data => Sys2Proof.Machine.execHomeOwnershipRequest line agent whole mask data s
  | .homeMaskRequest line agent mask data => Sys2Proof.Machine.execHomeMaskRequest line agent mask data s
  | .homeWriteBack line agent => Sys2Proof.Machine.execHomeWriteBack line agent s
  | .sharerEvictNotice line agent => Sys2Proof.Machine.execSharerEvictNotice line agent s
  | .readForward line agent reader => Sys2Proof.Machine.execReadForward line agent reader s
  | .ownershipForward line agent reader => Sys2Proof.Machine.execOwnershipForward line agent reader s
  | .invalidate line agent => Sys2Proof.Machine.execInvalidate line agent s
  | .convert line agent => Sys2Proof.Machine.execConvert line agent s
  | .gather line => Sys2Proof.Machine.execGather line s
  | .recall line agent => Sys2Proof.Machine.execRecall line agent s
  | .mirrorUpdate line => Sys2Proof.Machine.execMirrorUpdate line s
  | .contentionExpiry line => Sys2Proof.Machine.execContentionExpiry line s
  | .hostAccess access => Sys2Proof.Machine.execHostAccess access s
  | .portTrainingComplete router port gencap peer pport => Sys2Proof.Machine.execPortTrainingComplete router port gencap peer pport s
  | .portTrainingTimeout router port => Sys2Proof.Machine.execPortTrainingTimeout router port s
  | .portDisable router port => Sys2Proof.Machine.execPortDisable router port s
  | .flitReceive router port flit => Sys2Proof.Machine.execFlitReceive router port flit s
  | .flitRetryTimeout router port => Sys2Proof.Machine.execFlitRetryTimeout router port s
  | .packetRoute router input chan => Sys2Proof.Machine.execPacketRoute router input chan s
  | .fabricTimeout tag performed => Sys2Proof.Machine.execFabricTimeout tag performed s
  | .lowerCompletion tag result => Sys2Proof.Machine.execLowerCompletion tag result s
  | .stepPair core slot => Sys2Proof.Machine.execStepPair core slot s
  | .stepDataArrival packet => Sys2Proof.Machine.execStepDataArrival packet s
  | .stepResultsFormed core slot => Sys2Proof.Machine.execStepResultsFormed core slot s
  | .stepOutAck core slot outcome => Sys2Proof.Machine.execStepOutAck core slot outcome s
  | .stepDeadline core slot => Sys2Proof.Machine.execStepDeadline core slot s
  | .stepAbortReceive peer job chain step => Sys2Proof.Machine.execStepAbortReceive peer job chain step s
  | .gangSwitchOut => Sys2Proof.Machine.execGangSwitchOut s
  | .gangRestore => Sys2Proof.Machine.execGangRestore s
  | .gangQuiesce => Sys2Proof.Machine.execGangQuiesce s
  | .gangStart => Sys2Proof.Machine.execGangStart s
  | .markerArrival router port chan header => Sys2Proof.Machine.execMarkerArrival router port chan header s
  | .sweepPacket router input chan => Sys2Proof.Machine.execSweepPacket router input chan s
  | .sweepTimeout router input chan => Sys2Proof.Machine.execSweepTimeout router input chan s
  | .switchOutDone => Sys2Proof.Machine.execSwitchOutDone s
  | .latePacket router input chan => Sys2Proof.Machine.execLatePacket router input chan s
  | .qpEnable qp => Sys2Proof.Machine.execQpEnable qp s
  | .qpReset qp => Sys2Proof.Machine.execQpReset qp s
  | .rdmaPacketReceive packet => Sys2Proof.Machine.execRdmaPacketReceive packet s
  | .rdmaAckReceive qp ack => Sys2Proof.Machine.execRdmaAckReceive qp ack s
  | .rdmaResendTimeout qp => Sys2Proof.Machine.execRdmaResendTimeout qp s
  | .frameToHost port frame => Sys2Proof.Machine.execFrameToHost port frame s
  | .ethernetLinkTraining port rate => Sys2Proof.Machine.execEthernetLinkTraining port rate s
  | .hostPortTraining port link => Sys2Proof.Machine.execHostPortTraining port link s
  | .liveChange live epoch => Sys2Proof.Machine.execLiveChange live epoch s
  | .errorCorrected site => Sys2Proof.Machine.execErrorCorrected site s
  | .errorUncorrectable site => Sys2Proof.Machine.execErrorUncorrectable site s
  | .snapshotClaim core slot => Sys2Proof.Machine.execSnapshotClaim core slot s
  | .snapshotEarlyCopy ctl entry line => Sys2Proof.Machine.execSnapshotEarlyCopy ctl entry line s
  | .resetRelease boot => Sys2Proof.Machine.execResetRelease boot s
  | .measurementExtend slot digest => Sys2Proof.Machine.execMeasurementExtend slot digest s
  | .spdmGetMeasurements nonce => Sys2Proof.Machine.execSpdmGetMeasurements nonce s
  | .ftgtWrite island value => Sys2Proof.Machine.execFtgtWrite island value s
  | .pcapWrite value => Sys2Proof.Machine.execPcapWrite value s
  | .cappingStep watts sensors => Sys2Proof.Machine.execCappingStep watts sensors s
  | .overcurrent => Sys2Proof.Machine.execOvercurrent s
  | .thermalStep island milliCelsius => Sys2Proof.Machine.execThermalStep island milliCelsius s
  | .thermalShutdown => Sys2Proof.Machine.execThermalShutdown s
  | .moduleReset => Sys2Proof.Machine.execModuleReset s
  | .queueEnable queue => Sys2Proof.Machine.execQueueEnable queue s
  | .thermClear island => Sys2Proof.Machine.execThermClear island s

end Sys2Proof.Machine
end

