-- ==== Sys2Proof/Machine/Place.lean ====
section
/-! DEFINITION. Sys2Proof/Machine/Place.lean: a word placed where the next step fetches it. The module runs words only
on resident groups, which a launch admits (R331); this stands for that: one group on core 0 that stands at the header
of a block holding the word. -/

namespace Sys2Proof.Machine

/-- Pointer of the placed block's header: object 1, offset 0. -/
def placedHeader : Word64 := 0x0000010000000000

/-- Header of the placed block: LEN 1, no reconvergence header, nothing live. -/
def placedHeaderWord : Word64 := 0xF804000000000000

/-- A valid descriptor of object 1: read, write and atomic rights, control space, length 2^40. -/
def placedDesc : DescWord := BitVec.ofNat 256 (0x1D + 2 ^ 40 * 2 ^ 64)

/-- The group that runs the word: thirty-two threads, the greatest budget, no frames (R34). -/
def placedGroup : Group :=
  { ctx := 0, launch := 0, team := 0, index := 0, role := 0, part := 0, budget := 192, age := 0, v := [],
    s := [], p := [],
    fe := [], due := [], recs := [(0, { PathRec.free with state := .running, lanes := BitVec.allOnes 32, place := ⟨placedHeader, placedHeader, 0, [], 0, [], false⟩ })],
    trapWaits := [], splits := [], gens := seedAll 0, faultaddr := 0, faultcode := 0, mstat := 0, seed := 0, owes := false, wait := 0, ended := false }

/-- Its team. -/
def placedTeam : Team :=
  { ctx := 0, launch := 0, pos := 0, base := 0, bytes := 0, tiles := [], acmin := 0, acmax := 0, queues := [], cvs := [], pins := [],
    toPin := 0, admitted := 0, waiting := false }

/-- Its launch: one team of one role with one group, default bin timer, report. -/
def placedLaunch : Launch :=
  { queue := 0, qptr := 0, logn := 4, seq := 0, ctx := 0, slot := 0, entry := placedHeader, trapb := 0, grid := 0, roles := [⟨1, 192⟩],
    scrb := 0, acmin := 0, acmax := 0, weight := 0, prio := 0, mcheck := 0, gbar := false, preempt := false, demote := false,
    zt := false, bintimer := 2048, deps := [], sigptr := 0, state := .admitted, since := 0, nextTeam := 1, gwait := false, live := 1,
    cores := [0] }

/-- The header and the word as a line that core 0 caches. -/
def placedLine (w : Word64) : L1Line :=
  { pline := 0, slot := none, key := 0, data := BitVec.ofNat 1024 (placedHeaderWord.toNat + w.toNat * 2 ^ 64), dirty := 0, used := 0, way := 0 }

/-- Store a word where the next step fetches it. -/
def State.placeWord (s : State) (w : Word64) : State :=
  let k : Core := { s.core 0 with
    groups := tabPut (s.core 0).groups 0 placedGroup
    teams := tabPut (s.core 0).teams 0 placedTeam
    l1 := tabPut (s.core 0).l1 (l1Key 0 (ptrLineNo placedHeader)) (placedLine w)
    descs := ⟨0, 1, 0, placedDesc⟩ :: (s.core 0).descs.filter (fun d => !(d.ctx = 0 ∧ d.obj = 1)) }
  { (s.setCore 0 k).setCtx 0 { s.ctx 0 with valid := true, state := .resident, pkr := 0 } with
    roots := tabSet ⟨0, 0⟩ s.roots 0 { s.root 0 with onum := max (s.root 0).onum 2 }
    launches := tabPut s.launches 0 placedLaunch
    nextLaunch := max s.nextLaunch 1
    issuing := [⟨0, 0, 0⟩] }

end Sys2Proof.Machine
end

