-- ==== Sys2Proof/Machine/Step.lean ====
section
/-! DEFINITION. Sys2Proof/Machine/Step.lean: one step of the module. -/

namespace Sys2Proof.Machine

/-- One step: the words of the current issue cycle first (R241), a taken transfer waiting for its target's word (R156), then what
is outstanding in its order, then the next part of a cycle. -/
def step (s : State) : Host.Outcome State Fault Refusal :=
  match s.issuing with
  | r :: rest =>
    match ({ s with issuing := rest } : State).fetchNext r with
    | .error s' => .next (s'.finishSplits r.core r.slot)
    | .ok (i, s') =>
      let x : State := { s' with cur := some r }
      match exec i x with
      | .next t => .next (t.afterWord x r i)
      | o => o
  | [] =>
    match s.agenda with
    | e :: es => exec e { s with agenda := es }
    | [] => exec .issueCycle s

/-- The state with an instruction word stored where the next step fetches: `State.placeWord`, for a word of at most 64
bits with the bits above `nbits` zero. -/
def State.withFetchWord (s : State) (nbits w : Nat) : State := s.placeWord (BitVec.ofNat 64 (w % 2 ^ min nbits 64))

end Sys2Proof.Machine
end

