-- ==== Sys2Proof/Safety.lean ====
section
/-! DEFINITION. Sys2Proof/Safety.lean: what counts as a safe run, and the terms in which the statements say what an
instruction does: when a word runs, what a state leaves of another, and what a group leaves of itself. -/

namespace Sys2Proof

/-- The first k steps from a state all answer a next state. -/
def Safe (k : Nat) (s : Machine.State) : Prop := ∃ t, core.run k s = .next t

end Sys2Proof

namespace Sys2Proof.Claim

open Machine

/-! ### When a word runs -/

/-- A record issues the word i under a guard, with some thread Active; the word is legal within the group's budget, no
register that it waits on is empty (R32, R71, R72), no acquire or fence holds it back (R282, R293, R295), and a loop whose end
comes right after the word goes back to a header (R66): its own effect comes next. -/
def Runs (i : Instr) (guard : BitVec 4) (e : Iss) (s : State) : Prop :=
  s.issuer guard = some e ∧ e.act ≠ 0 ∧
    ∃ x, shapeOf i = some x ∧ x.legal = true ∧ x.inBudget e.g.budget = true ∧ e.g.waits x = .go ∧
      s.afterAcquire e i = false ∧ s.issued.backOk e = true

/-! ### What a state leaves of another -/

/-- A byte of physical memory. -/
def memByte (s : State) (a : Nat) : Byte := tabGet 0 s.mem a

/-- t is s with only cores and the agenda changed: no byte of memory, no line of a cache at L2, no context, launch,
queue, link or management register. -/
def OnlyCores (s t : State) : Prop :=
  t = { s with agenda := t.agenda, cores := t.cores } ∧ ∀ a, memByte t a = memByte s a

/-- t is s with one core become k, but for its groups, of which only the one in a slot has changed, into g'; and with the
events es put first. -/
def OnlyCore (s t : State) (core slot : Nat) (k : Core) (g' : Group) (es : List Instr) : Prop :=
  OnlyCores s t ∧ t.agenda = es ++ s.agenda ∧ (∀ c, c ≠ core → t.core c = s.core c) ∧
    t.core core = { k with groups := (t.core core).groups } ∧
    t.group core slot = some g' ∧ ∀ j, j ≠ slot → t.group core j = s.group core j

/-- t is s with the group of one slot become g', and the reconvergence that g' calls for put first. -/
def OnlyGroup (s t : State) (core slot : Nat) (g' : Group) : Prop :=
  OnlyCore s t core slot (s.core core) g' (g'.reconvEvents core slot)

/-- The record that has gone on to a place: it stops where it stands at its top reconvergence header. -/
def PathAt (q : PathRec) (p : Place) : PathRec :=
  ({ q with place := p, answer := none, arrive := none, drained := none } : PathRec).stopAtHeader

/-- g' has the records of g, but record i at a place; a running record that stands at its top header stops there. -/
def Places (g g' : Group) (i : Nat) (p : Place) : Prop :=
  g'.prec i = PathAt (g.prec i) p ∧ ∀ j, j ≠ i → g'.prec j = (g.prec j).stopAtHeader

/-- So are its records, and it differs in no field but registers, generators and records. -/
def Moves (g g' : Group) (i : Nat) (p : Place) : Prop :=
  Places g g' i p ∧ g' = { g with v := g'.v, s := g'.s, p := g'.p, gens := g'.gens, recs := g'.recs }

/-- D takes the results v of the Active lanes: in each lane of a v register or pair, once in an s register from the
lowest Active lane (64 bits, or 32 extended by sign or zero), as bit 0 in each lane of a predicate, nowhere for zero. -/
def Holds (g' : Group) (act : LaneMask) (d : BitVec 8) (n : Nat) (sx : Bool) (v : Nat → Word64) : Prop :=
  (isV d = true → ∀ l, l < 32 → act.getLsbD l = true →
    g'.vreg d.toNat l = (v l).setWidth 32 ∧ (n = 2 → g'.vreg (d.toNat + 1) l = (v l >>> 32).setWidth 32)) ∧
  (isS d = true → g'.sreg (d.toNat - 0xC0) =
    (if n = 2 then v (lowestLane act) else if sx then ((v (lowestLane act)).setWidth 32).signExtend 64
      else ((v (lowestLane act)).setWidth 32).zeroExtend 64)) ∧
  (isP d = true → ∀ l, l < 32 → act.getLsbD l = true →
    g'.predBit (d.toNat - 0xF0) l = (d == 0xF0 || (v l).getLsbD 0))

/-- Every element of a v register but those of the Active lanes of D is unchanged. -/
def KeepV (g g' : Group) (act : LaneMask) (d : BitVec 8) (n : Nat) : Prop :=
  ∀ r l, l < 32 → ¬(isV d = true ∧ d.toNat ≤ r ∧ r < d.toNat + n ∧ act.getLsbD l = true) → g'.vreg r l = g.vreg r l

/-- Every s register but D is unchanged. -/
def KeepS (g g' : Group) (d : BitVec 8) : Prop :=
  ∀ r, ¬(isS d = true ∧ r = d.toNat - 0xC0) → g'.sreg r = g.sreg r

/-- Every bit of a predicate but those of the Active lanes of the predicates listed is unchanged. -/
def KeepP (g g' : Group) (act : LaneMask) (ps : List Nat) : Prop :=
  ∀ r l, l < 32 → ¬(r ∈ ps ∧ act.getLsbD l = true) → g'.predBit r l = g.predBit r l

/-- Every register but D is unchanged. -/
def KeepRegs (g g' : Group) (act : LaneMask) (d : BitVec 8) (n : Nat) : Prop :=
  KeepV g g' act d n ∧ KeepS g g' d ∧ KeepP g g' act (if isP d then [d.toNat - 0xF0] else [])

/-- No register has changed. -/
def SameRegs (g g' : Group) : Prop :=
  (∀ r l, l < 32 → g'.vreg r l = g.vreg r l) ∧ (∀ r, g'.sreg r = g.sreg r) ∧
    ∀ r l, l < 32 → g'.predBit r l = g.predBit r l

/-- The word i completes: D takes the results v, everything else of the group is as before, the record goes on to the
word after, and nothing else of the machine has changed. -/
def Computes (i : Instr) (guard : BitVec 4) (d : BitVec 8) (n : Nat) (sx : Bool) (v : State → Iss → Nat → Word64) : Prop :=
  ∀ s e, Runs i guard e s → ∃ t g', exec i s = .next t ∧ OnlyGroup s.issued t e.core e.slot g' ∧
    Moves e.g g' e.prec e.q.place.after ∧ g'.gens = e.g.gens ∧
    Holds g' e.act d n sx (v s e) ∧ KeepRegs e.g g' e.act d n

/-- The word i completes by a change of its group's registers and generators alone, and its record goes on to a place. -/
def Changes (i : Instr) (guard : BitVec 4) (place : Iss → Place) (post : Iss → Group → Prop) : Prop :=
  ∀ s e, Runs i guard e s → ∃ t g', exec i s = .next t ∧ OnlyGroup s.issued t e.core e.slot g' ∧
    Moves e.g g' e.prec (place e) ∧ post e g'

/-- The word i is an illegal-instruction fault of the whole path of every record that issues it, whether a lane is Active
or not (R26, R72). -/
def Illegal (i : Instr) (guard : BitVec 4) : Prop :=
  ∀ s e, s.issuer guard = some e → exec i s = .next (s.issued.trapFault e.core e.slot e.prec e.q.lanes e.q.place 1
    e.q.place.word 0 0 0 (lowestLane e.q.lanes))

/-- The word at an address may be the target of a transfer (R141): control space, aligned, and a block header stands there.
s1 is the state after it has been fetched. -/
def TargetOk (s s1 : State) (e : Iss) (t : Word64) : Prop :=
  t.extractLsb' 62 2 = 0#2 ∧ t.extractLsb' 0 3 = 0#3 ∧
    ∃ w, s.fetchWord e.core e.g.ctx t = (.word w, s1) ∧ w.extractLsb' 58 6 = 0b111110#6

/-- The target of a format J word (R74): its own address with 8 times the offset added to the offset field, within the
field. -/
def Offset (pc t : Word64) (off : BitVec 32) : Prop :=
  t.extractLsb' 40 24 = pc.extractLsb' 40 24 ∧
    ((t.extractLsb' 0 40).toNat : Int) = ((pc.extractLsb' 0 40).toNat : Int) + 8 * off.toInt

/-- The word i, issued in s, completes from the state s1: its record goes to a place, no generator changes, and only the
registers that `post` names. -/
def Goes (i : Instr) (s s1 : State) (e : Iss) (p : Place) (post : Group → Group → Prop) : Prop :=
  ∀ g1, s1.group e.core e.slot = some g1 → ∃ t g', exec i s = .next t ∧ OnlyGroup s1 t e.core e.slot g' ∧
    Moves g1 g' e.prec p ∧ g'.gens = g1.gens ∧ post g1 g'

/-- So does the word i, its record going on to the word after. -/
def GoesOn (i : Instr) (s s1 : State) (e : Iss) (post : Group → Group → Prop) : Prop :=
  ∀ g1, s1.group e.core e.slot = some g1 → ∃ t g', exec i s = .next t ∧ OnlyGroup s1 t e.core e.slot g' ∧
    Moves g1 g' e.prec (g1.prec e.prec).place.after ∧ g'.gens = g1.gens ∧ post g1 g'

/-- The word i completes: its core becomes k, but for its groups, of which its own alone has changed, in registers that
`post` names; the record goes on to the word after. -/
def CoreGoesOn (i : Instr) (s : State) (e : Iss) (k : Core) (post : Group → Prop) : Prop :=
  ∃ t g', exec i s = .next t ∧ OnlyCore s.issued t e.core e.slot k g' (g'.reconvEvents e.core e.slot) ∧
    Moves e.g g' e.prec e.q.place.after ∧ g'.gens = e.g.gens ∧ post g'

/-- The word i parks its record, with a reason and an object, where it stands: its core becomes k, but for its groups. -/
def CoreParks (i : Instr) (s : State) (e : Iss) (k : Core) (reason : Nat) (obj : Word64) : Prop :=
  ∃ t g', exec i s = .next t ∧ OnlyCore s.issued t e.core e.slot k g' [] ∧
    (g'.prec e.prec).state = .parked ∧ (g'.prec e.prec).reason = reason ∧ (g'.prec e.prec).obj = obj ∧
    (g'.prec e.prec).place = e.q.place ∧ (g'.prec e.prec).lanes = e.q.lanes ∧
    (∀ j, j ≠ e.prec → g'.prec j = e.g.prec j) ∧ g' = { e.g with recs := g'.recs }

/-! ### Events -/

/-- t is s with one core become k and the agenda as given; no other core has changed, nor anything else of the machine. -/
def CoreIs (s t : State) (core : Nat) (k : Core) (agenda : List Instr) : Prop :=
  t = { s with agenda := agenda, cores := t.cores } ∧ (∀ c, c ≠ core → t.core c = s.core c) ∧ t.core core = k

/-- The event i completes: one core becomes k and the events es are put last. -/
def CoreDoes (i : Instr) (s : State) (core : Nat) (k : Core) (es : List Instr) : Prop :=
  ∃ t, exec i s = .next t ∧ CoreIs s t core k (s.agenda ++ es)

/-- The event i completes: its group becomes g', with the reconvergence that g' calls for, and nothing else changes. -/
def GroupDoes (i : Instr) (s : State) (core slot : Nat) (post : Group → Prop) : Prop :=
  ∃ t g', exec i s = .next t ∧ OnlyGroup s t core slot g' ∧ post g'

/-- Record i of g has become q in g'; every other record that stands at its top header stops there; no other field of
the group has changed. -/
def OneRecord (g g' : Group) (i : Nat) (q : PathRec) : Prop :=
  g'.prec i = q ∧ (∀ j, j ≠ i → g'.prec j = (g.prec j).stopAtHeader) ∧ g' = { g with recs := g'.recs }

end Sys2Proof.Claim
end

