-- ==== Sys2Proof/WellFormed.lean ====
section
/-! DEFINITION. Sys2Proof/WellFormed.lean: which terms of `Instr` stand for something of the hardware. An instruction
word is well formed when its entry allows its fields (R72, R81; Machine/Legal.lean): an ill-formed one is an
illegal-instruction fault when it issues. Another step is well formed when the numbers it carries name things that
the module has. -/

namespace Sys2Proof

open Machine

/-! ### Numbers of things -/

/-- A core of the module (R13), or the place apart that holds a context's part of one (R338). -/
def coreOk (c : Nat) : Bool := c < 512 * 65
/-- A group slot (R235). -/
def groupSlotOk (n : Nat) : Bool := n < 64
/-- A path record (R238). -/
def precOk (n : Nat) : Bool := n < 4
/-- A context (R323) or a queue (R325). -/
def ctxOk (n : Nat) : Bool := n < 64
/-- A span router and one of its ports (R379). -/
def portOk (r p : Nat) : Bool := r < 8 && p < 9
/-- A span router, an input of it (9 is the module's own injection) and a channel (R382, R384). -/
def inputOk (r i c : Nat) : Bool := r < 8 && i < 10 && c < 7
/-- A memory controller and a migration entry of it (R358). -/
def migOk (ctl entry : Nat) : Bool := ctl < 36 && entry < 8
/-- A physical line of the 56-bit address space, and a module (R345, R363). -/
def LineRef.ok (l : LineRef) : Bool := l.line < 2 ^ 49 && l.mirror < 256
/-- A caching agent of some module (R364). -/
def agentOk (a : Nat) : Bool := a < 2048
/-- A queue pair (R412). -/
def qpOk (q : Nat) : Bool := q < 4096
/-- A frequency island (R25). -/
def islandOk (i : Nat) : Bool := i < 24

/-- The register exists and the value fits the field. -/
def ConfigReg.ok : ConfigReg → Bool
  | .ctxJob x | .ctxCos x | .ctxClmask x | .ctxSave x | .ctxFlog x | .ctxPreq x | .ctxRreq x => ctxOk x
  | .queueQptr n | .queueLogn n | .queueCtx n => ctxOk n
  | .rootOtbase x | .rootOnum x | .resume x | .errLog x => ctxOk x
  | .migSrc c e | .migDst c e | .migLines c e | .migMode c e => migOk c e
  | .cosMask k => k < 16
  | .portEnable r p | .portGencap r p | .portRetry r p => portOk r p
  | .route r d => r < 8 && d < 256
  | .gangWord n k => n < 16 && k < 16
  | .region i k => i < 65536 && k < 4
  | .qpWord i k => qpOk i && k < 8
  | .carve k => k < 3
  | .hostCos | .fto | .gangTail | .moduleId | .ptime => true

/-- The word of a register map exists (R7). -/
def MapWord.ok : MapWord → Bool
  | .context x k => ctxOk x && k < 4
  | .queue n k => ctxOk n && k < 2
  | .root x k => ctxOk x && k < 2
  | .translation k => k < 16
  | .resume x => ctxOk x
  | .migration c e k => migOk c e && k < 4
  | .cosMask k => k < 16
  | .occupancy d s k => d < 4 && s < 512 && k < 16
  | .port r p => portOk r p
  | .route r d => r < 8 && d < 256
  | .window x p k => ctxOk x && p < 256 && k < 4
  | .gang n k => n < 16 && k < 16
  | .region i k => i < 65536 && k < 4
  | .queuePair i k => qpOk i && k < 8
  | .live k => k < 4
  | .island i k => islandOk i && k < 2
  | .hostCos | .fto | .gangHead | .gangTail | .mepoch | .boot | .power => true

/-- What a host agent names exists (R409). -/
def HostTarget.ok : HostTarget → Bool
  | .pointer ctx _ => ctxOk ctx
  | .physical pa mirror => pa < 2 ^ 56 && mirror < 256
  | .tensor pa => pa < 2 ^ 56
  | .register w => w.ok

/-- The site of an error exists (R428). -/
def ErrorSite.ok : ErrorSite → Bool
  | .register c s r l => coreOk c && groupSlotOk s && r < 256 && l < 32
  | .l1 c x n s l => coreOk c && ctxOk x && n < 2 ^ 55 && groupSlotOk s && l < 32
  | .scratch c _ s l => coreOk c && groupSlotOk s && l < 32
  | .tile c t e => coreOk c && t < 32 && e < 4096
  | .l2 a l => agentOk a && l.ok
  | .table c x => coreOk c && ctxOk x
  | .router r i c => inputOk r i c
  | .matrix c => coreOk c
  | .step c _ => coreOk c
  | .memory n => n < 2 ^ 49

/-- An instruction word whose entry allows its fields (R72, R81). -/
def Instr.wordOk (i : Instr) : Bool := (shapeOf i).any Shape.legal

/-- Well formed. -/
def Instr.wellFormed (i : Instr) : Bool :=
  match i with
  | .starvationGuard c p => coreOk c && p < 4
  | .longLatencyResult c _ => coreOk c
  | .parkWake c s r | .reconvLoneResume c s r | .matcheckFaultDelivery c s r | .launchEnqueue c s r =>
    coreOk c && groupSlotOk s && precOk r
  | .reconvMerge c s | .groupEnd c s => coreOk c && groupSlotOk s
  | .binTimerExpiry c b => coreOk c && b < 64
  | .binGroupLaunch c | .matrixOpStart c _ | .matrixOpEnd c | .scratchPin c => coreOk c
  | .teamEnd c t => coreOk c && t < 64
  | .mmvResultsReturn c _ _ | .copyLineAck c _ _ | .copyHoldRelease c _ | .snapshotClaim c _ => coreOk c
  | .stepPair c _ | .stepResultsFormed c _ | .stepOutAck c _ _ | .stepDeadline c _ => coreOk c
  | .engineArbitrationRound e => e < 128
  | .schedulerTailReread q | .launchDispatch q | .queueDisable q | .queueEnable q => ctxOk q
  | .contextValidate x | .contextEnd x | .contextFree x | .preemptRequest x | .preemptSave x | .savedArrival x _ => ctxOk x
  | .restoreRequest x | .contextRestore x | .resumeReissue x | .resumeDeliverTrap x | .resumeEndLanes x => ctxOk x
  | .resumeEngineRetry x | .resumeEngineEnd x => ctxOk x
  | .configRegisterWrite r _ => r.ok
  | .translationWalk d x _ => d < 4 && ctxOk x
  | .translationRetry pa => pa < 2 ^ 56
  | .snapshotEarlyCopy c e _ | .migrationEnable c e | .moveLineCopy c e | .migrationDisable c e => migOk c e
  | .homeReadRequest l a _ | .homeOwnershipRequest l a _ _ _ | .homeMaskRequest l a _ _ | .homeWriteBack l a => l.ok && agentOk a
  | .sharerEvictNotice l a | .invalidate l a | .convert l a | .recall l a => l.ok && agentOk a
  | .readForward l a b | .ownershipForward l a b => l.ok && agentOk a && agentOk b
  | .gather l | .mirrorUpdate l | .contentionExpiry l => l.ok
  | .hostAccess a => a.die < 2 && a.target.ok
  | .portTrainingComplete r p _ m q => portOk r p && m < 256 && q < 9
  | .portTrainingTimeout r p | .portDisable r p | .flitRetryTimeout r p => portOk r p
  | .flitReceive r p f => portOk r p && f.chan ≤ 7 && f.credits.all (fun c => c < 7)
  | .packetRoute r i c | .sweepPacket r i c | .sweepTimeout r i c | .latePacket r i c => inputOk r i c
  | .stepDataArrival p => p.peer < 256 && p.values.length ≤ 64
  | .stepAbortReceive m _ _ _ => m < 256
  | .markerArrival r p c _ => portOk r p && c < 7
  | .qpEnable q | .qpReset q | .rdmaAckReceive q _ | .rdmaResendTimeout q => qpOk q
  | .rdmaPacketReceive p => qpOk p.qp && p.psn < 2 ^ 24
  | .ethernetLinkTraining p _ => p < 8
  | .frameToHost p _ => p < 8
  | .hostPortTraining p l => p < 2 && (l.gen == 5 || l.gen == 6 || l.gen == 7) && (l.width == 16 || l.width == 8 || l.width == 4)
  | .errorCorrected e | .errorUncorrectable e => e.ok
  | .resetRelease b => b.failing.all (fun n => 1 ≤ n && n ≤ 5)
  | .measurementExtend n _ => n < 8
  | .ftgtWrite i _ | .thermalStep i _ | .thermClear i => islandOk i
  | .cappingStep _ l => l.all (fun e => islandOk e.1)
  | .issueCycle | .deviceTick | .systemTick | .teamAdmit | .launchComplete _ | .tseqWrite _ | .tdoneUpdate => true
  | .fabricTimeout _ _ | .lowerCompletion _ _ | .gangSwitchOut | .gangRestore | .gangQuiesce | .gangStart => true
  | .switchOutDone | .liveChange _ _ | .spdmGetMeasurements _ | .pcapWrite _ | .overcurrent | .thermalShutdown | .moduleReset => true
  | i => i.wordOk

end Sys2Proof
end

