-- ==== Sys2Proof/Certificates/Slice0/Obligations.lean ====
section
/-! DEFINITION. Sys2Proof/Certificates/Slice0/Obligations.lean: the statements for the provers. The terms in which they
speak (Runs, OnlyGroup, Computes …) stand in Sys2Proof/Safety.lean. -/

open Sys2Proof Sys2Proof.Machine Sys2Proof.Claim

/-! ### Encoding (R63–R80) -/

/-- Every instruction that a word encodes is read back from its word, with every operand at every value (R70, R79, R80). -/
def Obligations.DecodeOfEncode : Prop := ∀ (i : Instr) (w : Word64), encode i = some w → decode w = .ok i

/-- A word that decodes is the word of the instruction it decodes to: no two words name one instruction, and every bit
of a word is some field's (R70, R79, R80). -/
def Sys2Proof.Claim.EncodeOfDecode : Prop := ∀ (w : Word64) (i : Instr), decode w = .ok i → encode i = some w

/-- Opcodes that R79 assigns: its runs, less the codes it leaves out. -/
def assignedOpcodes : List Nat :=
  List.range' 0x00 0x25 ++ List.range' 0x28 10 ++ List.range' 0x40 24 ++ List.range' 0x60 6 ++ List.range' 0x70 8 ++
    List.range' 0x80 13 ++ List.range' 0x90 9 ++ List.range' 0xA0 8 ++ List.range' 0xB0 14 ++ List.range' 0xC0 6 ++
    List.range' 0xD0 6 ++ List.range' 0xE0 4 ++ List.range' 0xF0 5

/-- What the decoder rejects: a word with 0b111110 in bits [63:58] is a block header and no instruction (R64, R67); of
opcode 0x00 only the all-zero word is an instruction (R80); every opcode that R79 leaves unassigned is rejected, and
every other word is accepted. -/
def Obligations.DecodeRejects : Prop :=
  (∀ w : Word64, w.extractLsb' 58 6 = 0b111110#6 → decode w = .error .header) ∧
  (∀ w : Word64, w.extractLsb' 56 8 = 0#8 → decode w = if w = 0 then .ok .nop else .error .nopReserved) ∧
  (∀ w : Word64, w.extractLsb' 58 6 ≠ 0b111110#6 → (w.extractLsb' 56 8).toNat ∉ assignedOpcodes →
    decode w = .error (.unassigned (w.extractLsb' 56 8))) ∧
  (∀ w : Word64, w.extractLsb' 56 8 ≠ 0#8 → (w.extractLsb' 56 8).toNat ∈ assignedOpcodes → ∃ i, decode w = .ok i)

/-- Words written out from the spec's encodings decode to the instructions they stand for, one a format (R70, R76, R79). -/
def Obligations.DecodeWords : Prop :=
  decode 0x0000000000000000 = .ok .nop ∧
  -- IADD D=v3 A=v1 B=v2 C=0 TYPE=s32 GUARD=p0
  decode 0x0103010200000000 = .ok (.iadd ⟨3, 1, 2, 0, 0, 0, 0, 0⟩) ∧
  -- MOVI D=s5 IMM=−2 TYPE=s64 GUARD=!p3
  decode 0x31C500FFFFFFFE2B = .ok (.movi ⟨0xC5, 0, 0xFFFFFFFE, 2, 0xB⟩) ∧
  -- BR OFF=−4 GUARD=p1
  decode 0x800000FFFFFFFC01 = .ok (.br ⟨0, 0, 0xFFFFFFFC, 0, 1⟩) ∧
  -- LDC D=v8 A=v4 OFF12=1 TRAPSEL=A SIZE=b32 SCOPE=2 ORDER=1
  decode 0x9008040000108920 = .ok (.ldc ⟨8, 4, 0, 1, 0, 4, 4, 2, 1, 0⟩) ∧
  -- MMA D=3 A=s4 B=s6 C=s8 (format E)
  decode 0xC003C4C6C8000000 = .ok (.mma ⟨3, 0xC4, 0xC6, 0xC8, 0, 0, 0, 0⟩) ∧
  -- BRKPT IMM32=7
  decode 0xF200000000000700 = .ok (.brkpt ⟨0, 0, 7, 0, 0⟩)

/-- A word's bytes in memory, least significant first, decode as the word (R6, R63). -/
def Sys2Proof.Claim.DecodeBytes : Prop := ∀ w : Word64, decodeBytes (bytesOfWord w) = decode w ∧
  ∀ k, k < 8 → (bytesOfWord w)[k]? = some (w.extractLsb' (8 * k) 8)

/-- Decoding is exact: each word's instruction has that word, and the bytes of memory decode as the word they make. -/
def Obligations.ExactDecoding : Prop := EncodeOfDecode ∧ DecodeBytes

/-! ### One step (R63–R67, R241) -/

/-- No split of the group waits for its other path's word (R155). -/
def NoSplit (t : State) (r : IssueRef) : Prop := ∀ g, t.group r.core r.slot = some g → g.splits = []

/-- The step at s is exec of i at x; after it, what a transfer costs its threads is noted, and the splits of the cycle are
ranked once the group's last word of the cycle has issued (R155, R156). A fault or a refusal of exec is the step's own. -/
def StepIs (s x : State) (r : IssueRef) (i : Instr) : Prop :=
  (∀ t, exec i x = .next t → step s = .next (t.afterWord x r i)) ∧
    (∀ f, exec i x = .fault f → step s = .fault f) ∧ (∀ f, exec i x = .refused f → step s = .refused f) ∧
    (transferWord i = none → (∀ t, exec i x = .next t → NoSplit t r) → step s = exec i x)

/-- The step at s is the fault of a class that all threads of record r take at its place, with its address (R228). -/
def StepFaults (s s1 : State) (r : IssueRef) (g : Group) (cls : Nat) : Prop :=
  let t := s1.trapFault r.core r.slot r.prec (g.prec r.prec).lanes (g.prec r.prec).place cls (g.prec r.prec).place.word 0 0 0
    (lowestLane (g.prec r.prec).lanes)
  step s = .next (t.finishSplits r.core r.slot) ∧ (NoSplit t r → step s = .next t)

/-- What a step runs. The next record of the issue cycle: inside a block, the word at its place; at a block header, the
header and then the word after it, with LEN taken from the header; in both cases, when the word fetched decodes to i,
the step is exec of i with that record issuing, and after a transfer the wait for its target's word is noted. With no word
left to issue, the step is the first event of the agenda, and with none, the next part of the issue cycle. -/
def Obligations.StepRunsDecoded : Prop :=
  (∀ (s s1 : State) (r : IssueRef) (rest : List IssueRef) (g : Group) (w : Word64) (i : Instr), s.issuing = r :: rest →
    s.group r.core r.slot = some g → (g.prec r.prec).state = .running →
    (g.prec r.prec).place.word ≠ (g.prec r.prec).place.block → (g.prec r.prec).place.arrived = false →
    ({ s with issuing := rest } : State).fetchWord r.core g.ctx (g.prec r.prec).place.word = (.word w, s1) → decode w = .ok i →
    StepIs s { s1.onPrec r.core r.slot r.prec (fun q => { q with place := (g.prec r.prec).place }) with cur := some r } r i) ∧
  (∀ (s s1 s2 : State) (r : IssueRef) (rest : List IssueRef) (g : Group) (h w : Word64) (i : Instr), s.issuing = r :: rest →
    s.group r.core r.slot = some g → (g.prec r.prec).state = .running →
    (g.prec r.prec).place.word = (g.prec r.prec).place.block → (g.prec r.prec).place.arrived = false →
    ({ s with issuing := rest } : State).fetchWord r.core g.ctx (g.prec r.prec).place.block = (.word h, s1) →
    h.extractLsb' 58 6 = 0b111110#6 → h.extractLsb' 50 8 ≠ 0#8 →
    s1.fetchWord r.core g.ctx ((g.prec r.prec).place.word + 8) = (.word w, s2) → decode w = .ok i →
    StepIs s { s2.onPrec r.core r.slot r.prec (fun q => { q with place :=
        { (g.prec r.prec).place with word := (g.prec r.prec).place.word + 8, len := (h.extractLsb' 50 8).toNat } }) with cur := some r } r i) ∧
  (∀ (s : State) (e : Instr) (es : List Instr), s.issuing = [] → s.agenda = e :: es → step s = exec e { s with agenda := es }) ∧
  (∀ s : State, s.issuing = [] → s.agenda = [] → step s = exec .issueCycle s)

/-- A word that does not decode is an illegal-instruction fault of every thread of the path at that word (R64, R67, R72,
R80), and so is a header where a word is expected or a word where a header is; a path that has come to its reconvergence
header in the middle of a block faults there whatever the word is (R65). -/
def Sys2Proof.Claim.UndecodableWordFaults : Prop :=
  (∀ (s s1 : State) (r : IssueRef) (rest : List IssueRef) (g : Group) (w : Word64) (d : DecodeError), s.issuing = r :: rest →
    s.group r.core r.slot = some g → (g.prec r.prec).state = .running →
    (g.prec r.prec).place.word ≠ (g.prec r.prec).place.block →
    ({ s with issuing := rest } : State).fetchWord r.core g.ctx (g.prec r.prec).place.word = (.word w, s1) → decode w = .error d →
    StepFaults s s1 r g 1) ∧
  (∀ (s s1 : State) (r : IssueRef) (rest : List IssueRef) (g : Group) (w : Word64), s.issuing = r :: rest →
    s.group r.core r.slot = some g → (g.prec r.prec).state = .running →
    (g.prec r.prec).place.word ≠ (g.prec r.prec).place.block → (g.prec r.prec).place.arrived = true →
    ({ s with issuing := rest } : State).fetchWord r.core g.ctx (g.prec r.prec).place.word = (.word w, s1) →
    StepFaults s s1 r g 1) ∧
  (∀ (s s1 : State) (r : IssueRef) (rest : List IssueRef) (g : Group) (h : Word64), s.issuing = r :: rest →
    s.group r.core r.slot = some g → (g.prec r.prec).state = .running →
    (g.prec r.prec).place.word = (g.prec r.prec).place.block →
    ({ s with issuing := rest } : State).fetchWord r.core g.ctx (g.prec r.prec).place.block = (.word h, s1) →
    (h.extractLsb' 58 6 ≠ 0b111110#6 ∨ h.extractLsb' 50 8 = 0#8) → StepFaults s s1 r g 1)

/-- A word within a block whose bits [63:58] are 0b111110, come to issue, is an illegal-instruction fault (R67): every
thread of the path faults at it with class 1, and no effect of any instruction takes place. -/
def Obligations.HeaderWithinBlock : Prop :=
  ∀ (s s1 : State) (r : IssueRef) (rest : List IssueRef) (g : Group) (w : Word64), s.issuing = r :: rest →
    s.group r.core r.slot = some g → (g.prec r.prec).state = .running →
    (g.prec r.prec).place.word ≠ (g.prec r.prec).place.block →
    ({ s with issuing := rest } : State).fetchWord r.core g.ctx (g.prec r.prec).place.word = (.word w, s1) →
    w.extractLsb' 58 6 = 0b111110#6 → StepFaults s s1 r g 1

/-! ### Integer instructions (R92–R106) -/

/-- Elements of a result (R45, R92): element i of an elementwise operation is the exact value of the operation on the
elements i of the sources, its low bits, or with .sat the nearest value of the element type's range. -/
def Sys2Proof.Claim.ResultElements : Prop :=
  ∀ (t : BitVec 4) (sat : Bool) (op : Int → Int → Int → Int) (a b c : Word64) (i : Nat), t.toNat ≤ 7 → i < tyElems t →
    elemBits (elementwise t sat op a b c) (elemWidth t) i =
      (let x := op (elem a i t) (elem b i t) (elem c i t)
       let lo : Int := if tySigned t then -(2 : Int) ^ (elemWidth t - 1) else 0
       let hi : Int := if tySigned t then (2 : Int) ^ (elemWidth t - 1) - 1 else (2 : Int) ^ elemWidth t - 1
       let y : Int := if sat then max lo (min hi x) else x
       (y % (2 : Int) ^ elemWidth t).toNat)

/-- IADD, ISUB, IMUL, IMAD, IABS, INEG, IMIN, IMAX and IAVG complete with the elementwise result in D (R93). -/
def Sys2Proof.Claim.ElementwiseWords : Prop :=
  ∀ (f : FmtA), ∀ x ∈ ([
      (.iadd f, f.mod.getLsbD 3, fun a b _ => a + b),
      (.isub f, f.mod.getLsbD 3, fun a b _ => a - b),
      (.imul f, f.mod.getLsbD 3, fun a b _ => a * b),
      (.imad f, f.mod.getLsbD 3, fun a b c => a * b + c),
      (.iabs f, f.mod.getLsbD 3, fun a _ _ => max a (-a)),
      (.ineg f, f.mod.getLsbD 3, fun a _ _ => -a),
      (.imin f, false, fun a b _ => min a b),
      (.imax f, false, fun a b _ => max a b),
      (.iavg f, false, fun a b _ => (if f.mod.getLsbD 7 then a + b else a + b + 1) / 2)]
      : List (Instr × Bool × (Int → Int → Int → Int))),
    Computes x.1 f.guard f.d (tyRegs f.ty) (f.ty == 0)
      (fun _ e l => elementwise f.ty x.2.1 x.2.2 (f.valA e.g l) (f.valB e.g l) (f.valC e.g l))

/-- The elementwise integer words and the elements of their results. -/
def Obligations.IntegerElementwise : Prop := ResultElements ∧ ElementwiseWords

/-- IADDC, ISUBB, IADDS and ISUBS complete with the result in D and, in the Active lanes of the predicate of MOD[9:7],
the carry or borrow out, or whether the exact result lies outside its range (R94). The carry in is the bit of C, in the
lane itself, or where D is an s register in the lowest Active lane. -/
def Sys2Proof.Claim.IntegerCarry : Prop :=
  ∀ (f : FmtA), ∀ x ∈ ([
      (.iaddc f,
        fun e l => BitVec.ofNat 64 (((elem (f.valA e.g l) 0 f.ty + elem (f.valB e.g l) 0 f.ty + carryIn f e l) %
          (2 : Int) ^ elemWidth f.ty).toNat),
        fun e l => decide ((2 : Int) ^ elemWidth f.ty ≤ elem (f.valA e.g l) 0 f.ty + elem (f.valB e.g l) 0 f.ty + carryIn f e l)),
      (.isubb f,
        fun e l => BitVec.ofNat 64 (((elem (f.valA e.g l) 0 f.ty - elem (f.valB e.g l) 0 f.ty - carryIn f e l) %
          (2 : Int) ^ elemWidth f.ty).toNat),
        fun e l => decide (elem (f.valA e.g l) 0 f.ty - elem (f.valB e.g l) 0 f.ty - carryIn f e l < 0)),
      (.iadds f,
        fun e l => elementwise f.ty (f.mod.getLsbD 3) (fun a b _ => a + b) (f.valA e.g l) (f.valB e.g l) 0,
        fun e l => anyOutOfRange f.ty (fun a b => a + b) (f.valA e.g l) (f.valB e.g l)),
      (.isubs f,
        fun e l => elementwise f.ty (f.mod.getLsbD 3) (fun a b _ => a - b) (f.valA e.g l) (f.valB e.g l) 0,
        fun e l => anyOutOfRange f.ty (fun a b => a - b) (f.valA e.g l) (f.valB e.g l))]
      : List (Instr × (Iss → Nat → Word64) × (Iss → Nat → Bool))),
    Changes x.1 f.guard (fun e => e.q.place.after) (fun e g' => g'.gens = e.g.gens ∧
      (isV f.d ∨ isS f.d → Holds g' e.act f.d (tyRegs f.ty) (f.ty == 0) (x.2.1 e)) ∧
      (∀ l, l < 32 → e.act.getLsbD l = true → g'.predBit (fieldOf f.mod 7 3) l =
        (fieldOf f.mod 7 3 == 0 || x.2.2 e (if isS f.d then lowestLane e.act else l))) ∧
      KeepV e.g g' e.act f.d (tyRegs f.ty) ∧ KeepS e.g g' f.d ∧
      KeepP e.g g' e.act (fieldOf f.mod 7 3 :: if isP f.d then [f.d.toNat - 0xF0] else []))

/-- IMULH, IMADW, IDOT4, IDOT2, IPOPC, ICLZ, IBREV, IBFX, IBFI, PERM, LEA and FSHL complete with D as R95 to R105 say. -/
def Sys2Proof.Claim.IntegerWide : Prop :=
  ∀ (f : FmtA), ∀ x ∈ ([
      (.imulh f, tyRegs f.ty, fun g l => elementwise f.ty false (fun a b _ => (a * b) / (2 : Int) ^ elemWidth f.ty) (f.valA g l) (f.valB g l) 0),
      (.imadw f, 2, fun g l => madWide f.ty f.sat (g.read f.a 1 l) (g.read f.b 1 l) (g.read f.c 2 l)),
      (.idot4 f, 1, fun g l => dotInt f.ty (f.mod.getLsbD 7) f.sat (g.read f.a 1 l) (g.read f.b 1 l) (g.read f.c 1 l)),
      (.idot2 f, 1, fun g l => dotInt f.ty (f.mod.getLsbD 7) f.sat (g.read f.a 1 l) (g.read f.b 1 l) (g.read f.c 1 l)),
      (.ipopc f, 1, fun g l => countElems f.ty (popCount (elemWidth f.ty)) (f.valA g l)),
      (.iclz f, 1, fun g l => countElems f.ty (clz (elemWidth f.ty) (tySigned f.ty)) (f.valA g l)),
      (.ibrev f, tyRegs f.ty, fun g l => BitVec.ofNat 64 (bitRev (elemWidth f.ty) (f.valA g l).toNat)),
      (.ibfx f, tyRegs f.ty, fun g l => bitExtract f.ty (f.valA g l) (g.read f.b 1 l)),
      (.ibfi f, tyRegs f.ty, fun g l => bitInsert f.ty (f.valA g l) (f.valB g l) (g.read f.c 1 l)),
      (.fshl f, tyRegs f.ty, fun g l => funnel f.ty (f.valA g l) (f.valB g l) (g.read f.c 1 l)),
      (.perm f, 1, fun g l => permBytes (g.read f.a 1 l) (g.read f.b 1 l) (g.read f.c 1 l)),
      (.lea f, 2, fun g l => leaPtr (fieldOf f.mod 7 3) (g.read f.a 2 l) (g.read f.b 1 l))]
      : List (Instr × Nat × (Group → Nat → Word64))),
    Computes x.1 f.guard f.d x.2.1 (f.ty == 0) (fun _ e l => x.2.2 e.g l)

/-- The integer words with a carry or an overflow bit, and those of other shapes. -/
def Obligations.IntegerCarryWide : Prop := IntegerCarry ∧ IntegerWide

/-- AND, OR, XOR, NOT and ANDN complete with the raw bits of their sources combined (R102), SHL, SHR, SRA and ROTL with
the elements of A shifted by those of B (R103). -/
def Sys2Proof.Claim.IntegerBits : Prop :=
  ∀ (f : FmtA), ∀ x ∈ ([
      (.bitAnd f, fun a b => cutType f.ty (a &&& b)),
      (.bitOr f, fun a b => cutType f.ty (a ||| b)),
      (.bitXor f, fun a b => cutType f.ty (a ^^^ b)),
      (.bitNot f, fun a _ => cutType f.ty (~~~a)),
      (.andn f, fun a b => cutType f.ty (a &&& ~~~b)),
      (.shl f, fun a b => shlInt f.ty (f.mod.getLsbD 3) a b),
      (.shr f, fun a b => shrInt f.ty a b),
      (.sra f, fun a b => sraInt f.ty a b),
      (.rotl f, fun a b => rotlInt f.ty a b)] : List (Instr × (Word64 → Word64 → Word64))),
    Computes x.1 f.guard f.d (tyRegs f.ty) (f.ty == 0) (fun _ e l => x.2 (f.valA e.g l) (f.valB e.g l))

/-- ISEL completes with A where the bit of predicate C is one, B elsewhere (R99); into an s register by the bit of the
lowest Active lane (log entry 11). -/
def Sys2Proof.Claim.Selection : Prop :=
  ∀ (f : FmtA),
    Computes (.isel f) f.guard f.d (tyRegs f.ty) (f.ty == 0)
      (fun _ e l => if e.g.bitOf f.c (if isS f.d then lowestLane e.act else l) then f.valA e.g l else f.valB e.g l)

/-- ICMP (R98). With a TYPE from 0 to 7 and a condition from 0 to 5 it completes with each element of D all ones where the
condition holds between the elements of A and B, signed or unsigned as TYPE is, and zero elsewhere, a predicate taking bit
0; with another TYPE or condition, and with a packed TYPE and a predicate, it is an illegal-instruction fault. -/
def Obligations.Comparisons : Prop :=
  (∀ (f : FmtA), Computes (.icmp f) f.guard f.d (tyRegs f.ty) (f.ty == 0)
    (fun _ e l => cmpInt f.ty (fieldOf f.mod 7 3) (f.valA e.g l) (f.valB e.g l))) ∧
  (∀ (t : BitVec 4) (a b : Word64) (i : Nat), t.toNat ≤ 7 → i < tyElems t →
    ∀ c ∈ ([(0, decide (elem a i t = elem b i t)), (1, decide (elem a i t ≠ elem b i t)), (2, decide (elem a i t < elem b i t)),
      (3, decide (elem a i t ≤ elem b i t)), (4, decide (elem a i t > elem b i t)), (5, decide (elem a i t ≥ elem b i t))] : List (Nat × Bool)),
    elemBits (cmpInt t c.1 a b) (elemWidth t) i = if c.2 then 2 ^ elemWidth t - 1 else 0) ∧
  (∀ (f : FmtA), 7 < f.ty.toNat ∨ 5 < fieldOf f.mod 7 3 ∨ (isP f.d = true ∧ 4 ≤ f.ty.toNat) → Illegal (.icmp f) f.guard)

/-- The immediate forms complete with the register form's result, IMM32 in the place of B, sign-extended for s64 alone
(R73, R106); MOVI writes the immediate; ICMPI writes the predicate of D[2:0] by the condition of D[5:3]. -/
def Obligations.Immediates : Prop :=
  ∀ (f : FmtI), (∀ x ∈ ([
      (.iaddi f, fun a b => elementwise f.ty false (fun x y _ => x + y) a b 0),
      (.imuli f, fun a b => elementwise f.ty false (fun x y _ => x * y) a b 0),
      (.andi f, fun a b => cutType f.ty (a &&& b)),
      (.ori f, fun a b => cutType f.ty (a ||| b)),
      (.xori f, fun a b => cutType f.ty (a ^^^ b)),
      (.shli f, fun a b => shlInt f.ty false a b),
      (.shri f, fun a b => shrInt f.ty a b),
      (.srai f, fun a b => sraInt f.ty a b),
      (.movi f, fun _ b => b)] : List (Instr × (Word64 → Word64 → Word64))),
    Computes x.1 f.guard f.d (tyRegs f.ty) (f.ty == 0) (fun _ e l =>
      x.2 (e.g.read f.a (tyRegs f.ty) l) (if f.ty = 2 then f.imm.signExtend 64 else f.imm.zeroExtend 64))) ∧
  Computes (.icmpi f) f.guard (0xF0 ||| (f.d &&& 7)) (tyRegs f.ty) (f.ty == 0) (fun _ e l =>
    cmpInt f.ty (fieldOf f.d 3 3) (e.g.read f.a (tyRegs f.ty) l) (if f.ty = 2 then f.imm.signExtend 64 else f.imm.zeroExtend 64))

/-- The shifts of one 32-bit element (R103), by a count below the width and by one at or above it. -/
def Sys2Proof.Claim.IntegerValues : Prop :=
  (∀ (a b : Word64), 32 ≤ (b.setWidth 32).toNat → (shlInt 1 false a b).setWidth 32 = 0#32 ∧ (shrInt 1 a b).setWidth 32 = 0#32 ∧
    (sraInt 0 a b).setWidth 32 = if a.getLsbD 31 then BitVec.allOnes 32 else 0#32) ∧
  (∀ (a b : Word64), (b.setWidth 32).toNat < 32 →
    (shlInt 1 false a b).setWidth 32 = a.setWidth 32 <<< (b.setWidth 32).toNat ∧
    (shrInt 1 a b).setWidth 32 = a.setWidth 32 >>> (b.setWidth 32).toNat ∧
    (sraInt 0 a b).setWidth 32 = (a.setWidth 32).sshiftRight (b.setWidth 32).toNat) ∧
  (∀ (a b : Word64), (rotlInt 1 a b).setWidth 32 = (a.setWidth 32).rotateLeft ((b.setWidth 32).toNat % 32))

/-- Bitwise words, shifts with their values, and selection. -/
def Obligations.BitsShiftsSelection : Prop := IntegerBits ∧ IntegerValues ∧ Selection

/-! ### Floating-point and conversion instructions (R51–R55, R110–R124) -/

/-- Rounding (R51): a value that the destination format represents is returned as its own code under every mode, sign of
zero and infinity included; a NaN result is the default NaN of the format, and every code above the infinities is a NaN
(R54). -/
def Sys2Proof.Claim.FloatRounding : Prop :=
  (∀ m ∈ [f64Fmt, f32Fmt, f16Fmt, bf16Fmt, e4m3Fmt, e5m2Fmt, e3m2Fmt, e2m3Fmt, e2m1Fmt], ∀ (mode : Rounding) (sat : Bool) (c : Nat),
    c < 2 ^ m.width → (∀ neg, m.decode c ≠ .inf neg) → m.decode c ≠ .nan → m.round mode sat (m.decode c) = c) ∧
  (∀ (mode : Rounding) (sat : Bool), f64Fmt.round mode sat .nan = 0x7FF8000000000000 ∧ f32Fmt.round mode sat .nan = 0x7FC00000 ∧
    f16Fmt.round mode sat .nan = 0x7E00 ∧ bf16Fmt.round mode sat .nan = 0x7FC0 ∧ e4m3Fmt.round mode sat .nan = 0x7F ∧
    e5m2Fmt.round mode sat .nan = 0x7E) ∧
  (∀ c, c < 2 ^ 32 → (f32Fmt.decode c = .nan ↔ 0x7F800000 < c % 2 ^ 31)) ∧
  f32Fmt.decode 0x7F800000 = .inf false ∧ f32Fmt.decode 0xFF800000 = .inf true

/-- Special values of the arithmetic of R111 and R115 (R54, R55): invalid operations give NaN; a sum of zero of opposite
signs is +0, and −0 under RD. -/
def Sys2Proof.Claim.FloatSpecial : Prop :=
  (∀ rd x, FVal.add rd .nan x = .nan ∧ FVal.add rd x .nan = .nan ∧ FVal.mul .nan x = .nan ∧ FVal.mul x .nan = .nan ∧
    FVal.div .nan x = .nan ∧ FVal.div x .nan = .nan) ∧
  (∀ rd a, FVal.add rd (.inf a) (.inf !a) = .nan ∧ FVal.add rd (.inf a) (.inf a) = .inf a) ∧
  (∀ a b e, FVal.mul (.inf a) (.fin b 0 e) = .nan ∧ FVal.mul (.fin b 0 e) (.inf a) = .nan) ∧
  (∀ a b, FVal.div (.inf a) (.inf b) = .nan) ∧ (∀ a b e k, FVal.div (.fin a 0 e) (.fin b 0 k) = .nan) ∧
  (∀ a b m e k, m ≠ 0 → FVal.div (.fin a m e) (.fin b 0 k) = .inf (a != b)) ∧
  (∀ m e, m ≠ 0 → FVal.sqrt (.fin true m e) = .nan) ∧ FVal.sqrt (.inf true) = .nan ∧
  (∀ rd m e, ∃ k, FVal.add rd (.fin false m e) (.fin true m e) = .fin rd 0 k)

/-- Rounding to a format and the arithmetic of special values. -/
def Obligations.RoundingAndSpecials : Prop := FloatRounding ∧ FloatSpecial

/-- FADD, FSUB, FMUL, FFMA, FRCP, FRSQ, FSQRT, FDIV and FRND complete with each element the exact result of their
operation rounded once, in the mode of MOD[2:0] (R110, R111, R115, R117). -/
def Obligations.FloatArithmetic : Prop :=
  ∀ (f : FmtA), ∀ x ∈ ([
      (.fadd f, fun a b _ => FVal.add (fieldOf f.mod 0 3 == 2) a b),
      (.fsub f, fun a b _ => FVal.add (fieldOf f.mod 0 3 == 2) a b.negate),
      (.fmul f, fun a b _ => FVal.mul a b),
      (.ffma f, fun a b c => FVal.add (fieldOf f.mod 0 3 == 2) (FVal.mul a b) c),
      (.frcp f, fun a _ _ => a.recip),
      (.frsq f, fun a _ _ => a.rsqrt),
      (.fsqrt f, fun a _ _ => a.sqrt),
      (.fdiv f, fun a b _ => FVal.div a b),
      (.frnd f, fun a _ _ => a.integral (roundMode f.mod))] : List (Instr × (FVal → FVal → FVal → FVal))),
    Computes x.1 f.guard f.d 1 false
      (fun _ e l => floatElems f.ty (roundMode f.mod) x.2 (f.valA e.g l) (f.valB e.g l) (f.valC e.g l))

/-- FMIN, FMAX, FMINM, FMAXM, FCMP, FCLASS and FFRAC complete with their functions of the codes in each element (R112,
R113, R114, R117). -/
def Sys2Proof.Claim.FloatCodes : Prop :=
  ∀ (f : FmtA), ∀ x ∈ ([
      (.fmin f, fun m a b => minMax m false false a b),
      (.fmax f, fun m a b => minMax m true false a b),
      (.fminm f, fun m a b => minMax m false true a b),
      (.fmaxm f, fun m a b => minMax m true true a b),
      (.fcmp f, fun m a b => if floatCond (fieldOf f.mod 7 3) (m.decode a) (m.decode b) then 2 ^ m.width - 1 else 0),
      (.fclass f, fun m a _ => classOf m a),
      (.ffrac f, fun m a _ => fracCode m (roundMode f.mod) a)] : List (Instr × (FloatFmt → Nat → Nat → Nat))),
    Computes x.1 f.guard f.d 1 false (fun _ e l => codeElems f.ty x.2 (f.valA e.g l) (f.valB e.g l))

/-- FSCALE, FDOT2, CVT, PACK, UNPK and DQMX complete with the values of R117, R118, R119, R121, R122 and R124. -/
def Sys2Proof.Claim.FloatConversions : Prop :=
  ∀ (f : FmtA), ∀ x ∈ ([
      (.fscale f, 1, fun g l => BitVec.ofNat 64 (packElems (elemWidth f.ty) ((List.range (tyElems f.ty)).map (fun i =>
        (fmtOfType f.ty).round (roundMode f.mod) false (((fmtOfType f.ty).decode (elemBits (f.valA g l) (elemWidth f.ty) i)).scale
          (elemInt (f.valB g l) (elemWidth f.ty) i true)))))),
      (.fdot2 f, 1, fun g l => dotFloat f.ty (roundMode f.mod) (f.valA g l) (f.valB g l) (g.read f.c 1 l)),
      (.cvt f, tyRegs f.ty, fun g l => convLane f.ty (fromType f.mod) (fieldOf f.mod 11 2) (roundMode f.mod) f.sat
        (g.read f.a (tyRegs (fromType f.mod)) l)),
      (.pack f, 1, fun g l => packLane f.ty (fromType f.mod) (fieldOf f.mod 11 2) (roundMode f.mod) f.sat
        (g.read f.a 1 l) (g.read f.b 1 l) (g.read f.c 1 l)),
      (.unpk f, 2, fun g l => unpackLane f.ty (fieldOf f.mod 11 2) (g.read f.a 1 l)),
      (.dqmx f, 1, fun g l => dqmxLane (fieldOf f.mod 4 3) (roundMode f.mod) (g.read f.a 1 l))]
      : List (Instr × Nat × (Group → Nat → Word64))),
    Computes x.1 f.guard f.d x.2.1 false (fun _ e l => x.2.2 e.g l)

/-- The floating words on codes, and the conversions. -/
def Obligations.FloatCodesConversions : Prop := FloatCodes ∧ FloatConversions

/-- FEXP2, FLOG2, FSIN, FCOS, FTANH and FSIGM complete with the machine's fixed function of the f32 source (R116); a NaN
gives the default NaN. Which of the values that the bounds allow it is, no statement says. -/
def Sys2Proof.Claim.FloatTranscendental : Prop :=
  (∀ (f : FmtA), ∀ x ∈ ([(.fexp2 f, exp2Code), (.flog2 f, log2Code), (.fsin f, sinCode), (.fcos f, cosCode), (.ftanh f, tanhCode),
      (.fsigm f, sigmCode)] : List (Instr × (Nat → Nat))),
    Computes x.1 f.guard f.d 1 false (fun _ e l => BitVec.ofNat 64 (x.2 ((e.g.read f.a 1 l).setWidth 32).toNat))) ∧
  (∀ c, c < 2 ^ 32 → f32Fmt.decode c = .nan → exp2Code c = 0x7FC00000 ∧ log2Code c = 0x7FC00000 ∧ sinCode c = 0x7FC00000 ∧
    cosCode c = 0x7FC00000 ∧ tanhCode c = 0x7FC00000 ∧ sigmCode c = 0x7FC00000)

/-- CVTSR and QMX complete with their values, and advance the generator of every Active lane once when they round
stochastically, each lane's draw taken from its own generator before (R52, R120, R123); where CVTSR writes an s register,
the lowest Active lane alone. -/
def Sys2Proof.Claim.StochasticRounding : Prop :=
  ∀ (f : FmtA),
    Changes (.cvtsr f) f.guard (fun e => e.q.place.after) (fun e g' =>
      Holds g' e.act f.d 1 false (fun l => convLane f.ty 8 (fieldOf f.mod 11 2) (.sr (genDraw (e.g.gen l))) f.sat (e.g.read f.a 1 l)) ∧
      KeepRegs e.g g' e.act f.d 1 ∧
      ∀ l, l < 32 → g'.gen l = if e.act.getLsbD l ∧ (isS f.d = true → l = lowestLane e.act) then nextGen (e.g.gen l) else e.g.gen l) ∧
    Changes (.qmx f) f.guard (fun e => e.q.place.after) (fun e g' =>
      Holds g' e.act f.d 1 false (fun l => qmxLane (fieldOf f.mod 4 3)
        (mxScale (fieldOf f.mod 4 3) ((lanesOf e.act).map (fun k => f32Fmt.decode ((e.g.read f.a 1 k).setWidth 32).toNat)))
        (roundingOf (fieldOf f.mod 0 3) (genDraw (e.g.gen l))) (e.g.read f.a 1 l)) ∧
      KeepRegs e.g g' e.act f.d 1 ∧
      ∀ l, l < 32 → g'.gen l = if e.act.getLsbD l ∧ fieldOf f.mod 0 3 = 4 then nextGen (e.g.gen l) else e.g.gen l)

/-- The transcendental words, and stochastic rounding with its generators. -/
def Obligations.TranscendentalStochastic : Prop := FloatTranscendental ∧ StochasticRounding

/-! ### Moves, special registers and exchange (R128–R136) -/

/-- Sources (R27, R28): a v register gives its lane's element, or its pair's 64 bits; an s register its 64 bits; a
predicate its mask; 0xF8 zero; 0xF9 the lane's own number. -/
def Sys2Proof.Claim.SourceValues : Prop :=
  ∀ (g : Group) (c : BitVec 8) (n l : Nat), l < 32 →
    (c.toNat ≤ 0xBF → n ≠ 2 → g.read c n l = (g.vreg c.toNat l).zeroExtend 64) ∧
    (c.toNat ≤ 0xBF → n = 2 → g.read c n l = g.vreg (c.toNat + 1) l ++ g.vreg c.toNat l) ∧
    (0xC0 ≤ c.toNat → c.toNat ≤ 0xEF → g.read c n l = g.sreg (c.toNat - 0xC0)) ∧
    (0xF0 ≤ c.toNat → c.toNat ≤ 0xF7 → g.read c n l = (g.pred (c.toNat - 0xF0)).zeroExtend 64) ∧
    (c = 0xF8 → g.read c n l = 0) ∧ (c = 0xF9 → g.read c n l = BitVec.ofNat 64 l)

/-- MOV and FOLD complete with their values (R129, R135). In an s register, a 32-bit result stands in the low half, and
no rule states the upper half: some value w stands there, and nothing more is said of it (log entry 3). -/
def Sys2Proof.Claim.MoveFold : Prop :=
  ∀ (f : FmtA), ∀ x ∈ ([(.mov f, fun e l => f.valA e.g l), (.fold f, fun e l => foldValue f e l)] : List (Instr × (Iss → Nat → Word64))),
    (¬(isS f.d = true ∧ tyRegs f.ty = 1) → Computes x.1 f.guard f.d (tyRegs f.ty) false (fun _ e l => x.2 e l)) ∧
    (isS f.d = true → tyRegs f.ty = 1 → ∀ s e, Runs x.1 f.guard e s → ∃ t g' w, exec x.1 s = .next t ∧
      OnlyGroup { s.issued with freeCtr := s.freeCtr + 1 } t e.core e.slot g' ∧ Moves e.g g' e.prec e.q.place.after ∧ g'.gens = e.g.gens ∧
      g'.sreg (f.d.toNat - 0xC0) = (w : Word32) ++ (x.2 e (lowestLane e.act)).setWidth 32 ∧ KeepRegs e.g g' e.act f.d 1)

/-- Source operands, MOV and FOLD. -/
def Obligations.SourcesAndMoves : Prop := SourceValues ∧ MoveFold

/-- MOVS completes with a special register's value (R35, R130), among them: the lane, the group's index and role, the
launch's grid, the module's time, and the registers in which the group holds its last fault. -/
def Sys2Proof.Claim.ReadSpecial : Prop :=
  (∀ (f : FmtA), Computes (.movs f) f.guard f.d (if f.ty = 3 then 2 else 1) false (fun s e l => s.special e f.b.toNat l)) ∧
  (∀ (s : State) (e : Iss) (l : Nat), s.special e 0x00 l = BitVec.ofNat 64 l ∧ s.special e 0x02 l = BitVec.ofNat 64 e.g.index ∧
    s.special e 0x05 l = BitVec.ofNat 64 e.g.role ∧ s.special e 0x08 l = s.moduleId.zeroExtend 64 ∧ s.special e 0x0A l = s.ptime ∧
    s.special e 0x0B l = s.systemTicks ++ s.deviceTicks ∧ s.special e 0x0C l = e.g.faultaddr ∧ s.special e 0x0D l = e.g.faultcode ∧
    s.special e 0x0E l = e.g.mstat ∧ s.special e 0x0F l = e.g.seed ∧ s.special e 0x11 l = BitVec.ofNat 64 e.g.ctx)

/-- MOVX completes: x.faultaddr takes the source, x.faultcode its bits [14:0], x.mstat DET and COR, with PEND cleared by a
1, x.seed the source with every lane's generator seeded from it; a write to a register that is read-only changes nothing
(R35, R36, R53, R131). -/
def Sys2Proof.Claim.WriteSpecial : Prop :=
  ∀ (f : FmtA) (s : State) (e : Iss), Runs (.movx f) f.guard e s → ∃ t g', exec (.movx f) s = .next t ∧
    OnlyGroup s.issued t e.core e.slot g' ∧ Places e.g g' e.prec e.q.place.after ∧
    (let v := e.g.read f.a 2 (lowestLane e.act)
     g' = { e.g with
      recs := g'.recs
      faultaddr := if f.d = 0x0C then v else e.g.faultaddr
      faultcode := if f.d = 0x0D then v &&& 0x7FFF else e.g.faultcode
      mstat := if f.d = 0x0E then (if v.getLsbD 63 then 0 else e.g.mstat &&& 0x8000000000000000) ||| (v &&& 0xFFFFFFFF) else e.g.mstat
      seed := if f.d = 0x0F then v else e.g.seed
      gens := if f.d = 0x0F then (List.range 32).map (fun l => (l, seedLane v l)) else e.g.gens })

/-- MOVS and MOVX. -/
def Obligations.SpecialRegisters : Prop := ReadSpecial ∧ WriteSpecial

/-- SHFL, VOTE and MATCH complete with what the Active lanes exchange (R132, R133, R134). -/
def Sys2Proof.Claim.Exchange : Prop :=
  ∀ (f : FmtA),
    Computes (.shfl f) f.guard f.d (tyRegs f.ty) false (fun _ e l => shuffle f e l) ∧
    Computes (.vote f) f.guard f.d 1 false (fun _ e _ => voteValue f e) ∧
    Computes (.matchLanes f) f.guard f.d 1 false (fun _ e l => matchValue f e l)

/-- What SHFL, VOTE and MATCH give in plain cases (R132, R133, R134): a broadcast from one lane; an inactive source lane
leaves a lane its own value; the ballot is the mask of the Active lanes where the value is true. -/
def Sys2Proof.Claim.ExchangeValues : Prop :=
  (∀ (f : FmtA) (e : Iss) (l : Nat), l < 32 → fieldOf f.mod 7 3 = 0 → fieldOf f.mod 10 3 = 0 →
    shuffle f e l = let k := ((e.g.read f.b 1 l).setWidth 32).toNat % 32
      if e.act.getLsbD k then f.valA e.g k else f.valA e.g l) ∧
  (∀ (f : FmtA) (e : Iss), fieldOf f.mod 7 3 = 3 →
    voteValue f e = (maskOf ((lanesOf e.act).filter (voteTruth e.g f.a))).zeroExtend 64) ∧
  (∀ (f : FmtA) (e : Iss) (l k : Nat), l < 32 → k < 32 → e.act.getLsbD l = true → fieldOf f.mod 7 2 = 0 →
    (matchValue f e l).getLsbD k = (e.act.getLsbD k && (cutType f.ty (f.valA e.g k) == cutType f.ty (f.valA e.g l))))

/-- SHFL, VOTE and MATCH. -/
def Obligations.LaneExchange : Prop := Exchange ∧ ExchangeValues

/-- PLOP (R136). It completes with bit a + 2b of the truth table in MOD[10:7] in each Active lane of the predicate D, a and
b the lane's bits of A and B, zero reading as false; the other lanes keep their bits, and p0 keeps reading as ones. D no
predicate, A or B neither a predicate nor zero, and a nonzero MOD[12:11], MOD[6:0] or TRAPSEL are illegal-instruction
faults. -/
def Obligations.PredicateLogic : Prop :=
  (∀ (f : FmtA), Changes (.plop f) f.guard (fun e => e.q.place.after) (fun e g' => g'.gens = e.g.gens ∧
    (∀ l, l < 32 → e.act.getLsbD l = true → g'.predBit (f.d.toNat - 0xF0) l = (f.d == 0xF0 || (fieldOf f.mod 7 4).testBit
      ((if f.a ≠ 0xF8 ∧ e.g.predBit (f.a.toNat - 0xF0) l then 1 else 0) +
        2 * (if f.b ≠ 0xF8 ∧ e.g.predBit (f.b.toNat - 0xF0) l then 1 else 0)))) ∧
    KeepRegs e.g g' e.act f.d 1)) ∧
  (∀ (f : FmtA), isP f.d = false ∨ (isP f.a = false ∧ f.a ≠ 0xF8) ∨ (isP f.b = false ∧ f.b ≠ 0xF8) ∨ fieldOf f.mod 11 2 ≠ 0 ∨
    fieldOf f.mod 0 7 ≠ 0 ∨ f.trap ≠ 0 → Illegal (.plop f) f.guard)

/-! ### Issue, waits and faults (R9, R26, R32, R71, R72, R228) -/

/-- Instruction words whose illegal cases all rest on the word and the register budget, with their guards. -/
def plainWords (f : FmtA) (i : FmtI) (j : FmtJ) (m : FmtM) : List (Instr × BitVec 4) :=
  [(.iadd f, f.guard), (.isub f, f.guard), (.imad f, f.guard), (.iaddc f, f.guard), (.icmp f, f.guard), (.isel f, f.guard),
    (.bitAnd f, f.guard), (.shl f, f.guard), (.perm f, f.guard), (.lea f, f.guard), (.fadd f, f.guard), (.ffma f, f.guard),
    (.fcmp f, f.guard), (.cvt f, f.guard), (.cvtsr f, f.guard), (.mov f, f.guard), (.movs f, f.guard), (.movx f, f.guard),
    (.shfl f, f.guard), (.vote f, f.guard), (.fold f, f.guard), (.plop f, f.guard), (.brx f, f.guard), (.callx f, f.guard),
    (.ret f, f.guard), (.exit f, f.guard), (.yield f, f.guard), (.iaddi i, i.guard), (.icmpi i, i.guard), (.movi i, i.guard),
    (.trap i, i.guard), (.brkpt i, i.guard), (.br j, j.guard), (.brd j, j.guard), (.call j, j.guard), (.loop j, j.guard),
    (.loopi j, j.guard), (.spawn j, j.guard), (.winnow j, j.guard), (.ldc m, m.guard), (.stc m, m.guard), (.lds m, m.guard),
    (.sts m, m.guard), (.ldm m, m.guard), (.stm m, m.guard), (.ldw m, m.guard), (.stw m, m.guard), (.atc m, m.guard),
    (.ats m, m.guard), (.att m, m.guard), (.cctl m, m.guard), (.fence m, m.guard), (.fencesc m, m.guard), (.tfence m, m.guard),
    (.waita m, m.guard), (.slinit m, m.guard)]

/-- An instruction with no Active lane, legal as a word, does nothing but go on to the word after (R71): no register,
predicate, generator, full/empty state or byte of memory changes, and no empty register is waited for. Here no loop that
ends after the word goes back to a word that is no header. -/
def Obligations.NoActiveLane : Prop :=
  ∀ (f : FmtA) (i : FmtI) (j : FmtJ) (m : FmtM), ∀ w ∈ plainWords f i j m, ∀ (s : State) (e : Iss) (x : Shape),
    s.issuer w.2 = some e → e.act = 0 → shapeOf w.1 = some x → x.legal = true → x.inBudget e.g.budget = true →
    s.issued.backOk e = true →
    ∃ t g', exec w.1 s = .next t ∧ OnlyGroup s.issued t e.core e.slot g' ∧ Moves e.g g' e.prec e.q.place.after ∧
      g'.gens = e.g.gens ∧ SameRegs e.g g'

/-- What stops a word before its effect. An illegal word, or one that names a vector register at or above the budget, is
an illegal-instruction fault of every thread of its path, whether Active is empty or not (R26, R72). A source selected
for trap with an empty register faults the Active lanes with class 9 and the number of its field (R32). Otherwise the
first of its registers that is not FULL decides: EMPTY-LOCAL leaves the record where it is, to issue again; EMPTY-REMOTE
parks it with the reason register and the register's code (R32, R252). -/
def Sys2Proof.Claim.RefusedWords : Prop :=
  ∀ (f : FmtA) (i : FmtI) (j : FmtJ) (m : FmtM), ∀ w ∈ plainWords f i j m, ∀ (s : State) (e : Iss) (x : Shape),
    s.issuer w.2 = some e → shapeOf w.1 = some x →
    ((x.legal = false ∨ x.inBudget e.g.budget = false) →
      exec w.1 s = .next (s.issued.trapFault e.core e.slot e.prec e.q.lanes e.q.place 1 e.q.place.word 0 0 0 (lowestLane e.q.lanes))) ∧
    (x.legal = true → x.inBudget e.g.budget = true → e.act ≠ 0 →
      (∀ r ∈ x.srcs.head?, r.trap = true → (∃ c ∈ r.regs, e.g.feOf c ≠ .full) →
        exec w.1 s = .next (s.issued.trapFault e.core e.slot e.prec e.act e.q.place 9 e.q.place.word r.fld 0 0 (lowestLane e.act))) ∧
      ((∀ r ∈ x.srcs, r.trap = false) → ∀ c cs, x.srcs.flatMap Src.regs ++ x.dsts.flatMap Dst.regs = c :: cs →
        (e.g.feOf c = .emptyLocal → exec w.1 s = .next s.issued) ∧
        (e.g.feOf c = .emptyRemote → ∃ t g', exec w.1 s = .next t ∧ OnlyCore s.issued t e.core e.slot (s.core e.core) g' [] ∧
          g'.prec e.prec = { e.q with state := .parked, reason := 1, obj := BitVec.ofNat 64 c, waitPtrs := [], woken := false } ∧
          (∀ k, k ≠ e.prec → g'.prec k = e.g.prec k) ∧ g' = { e.g with recs := g'.recs })))

/-- The end check of a loop whose start is no header (R66, R146). A word that goes on from a loop's last address to its start,
where the word found is no header, has no effect: it is an illegal-instruction fault of its whole path at that word, with
x.faultaddr set to the start. So it is with a word that no lane executes. -/
def Sys2Proof.Claim.LoopBackFaults : Prop :=
  (∀ (f : FmtA), ∀ i ∈ [Instr.iadd f, .imad f, .fadd f, .shfl f], ∀ (s : State) (e : Iss) (x : Shape) (start : Word64),
    s.issuer f.guard = some e → e.act ≠ 0 → shapeOf i = some x → x.legal = true → x.inBudget e.g.budget = true → e.g.waits x = .go →
    s.afterAcquire e i = false → e.q.place.loopStart = some start → s.issued.backOk e = false →
    exec i s = .next (s.issued.trapFault e.core e.slot e.prec e.q.lanes e.q.place 1 start 0 0 0 (lowestLane e.q.lanes))) ∧
  (∀ (f : FmtA) (i : FmtI) (j : FmtJ) (m : FmtM), ∀ w ∈ plainWords f i j m, ∀ (s : State) (e : Iss) (x : Shape) (start : Word64),
    s.issuer w.2 = some e → e.act = 0 → shapeOf w.1 = some x → x.legal = true → x.inBudget e.g.budget = true →
    e.q.place.loopStart = some start → s.issued.backOk e = false →
    exec w.1 s = .next (s.issued.trapFault e.core e.slot e.prec e.q.lanes e.q.place 1 start 0 0 0 (lowestLane e.q.lanes))) ∧
  (∀ (s s1 : State) (e : Iss) (start w : Word64), e.q.place.loopStart = some start →
    s.fetchWord e.core e.g.ctx start = (.word w, s1) → s.backOk e = decide (w.extractLsb' 58 6 = 0b111110#6)) ∧
  (∀ (p : Place) (x : Frame) (fs : List Frame), p.frames = x :: fs → x.depth = p.depth → p.word + 8 = x.exit → x.count ≠ 1 →
    p.loopStart = some x.start) ∧
  ∀ (p : Place), p.frames = [] → p.loopStart = none

/-- What stops a word before its effect: a word that does not decode, a word that the checks at issue turn away, and a loop
that goes back to no header. -/
def Obligations.IssueStops : Prop := UndecodableWordFaults ∧ RefusedWords ∧ LoopBackFaults

/-- Taking a trapping fault (R37, R228): x.faultaddr and x.faultcode are set; then, where the launch has a trap block and
the path is not in trap, and all its threads fault, the path runs at the header of the trap block with no frames, call
depth 0 and an empty stack, and its trap-return record is the place of the fault. Nothing else of the group changes. -/
def Obligations.TrapEntry : Prop :=
  (∀ (s : State) (core slot : Nat) (g : Group) (f : FaultInfo), s.group core slot = some g →
    ∃ g', OnlyCore s (s.setFaultRegs core slot f) core slot (s.core core) g' [] ∧
      g' = { g with
        faultaddr := f.addr
        faultcode := BitVec.ofNat 64 (f.cls % 256 + f.lane % 32 * 2 ^ 8 + f.opnd % 4 * 2 ^ 13) }) ∧
  (∀ (s s1 : State) (core slot i : Nat) (lanes : LaneMask) (ret : Place) (cls opnd cause detail lane : Nat) (addr a : Word64) (g1 : Group),
    s.recordFault core slot ⟨cls, lane, opnd, cause, false, i, slot, core, addr, ret.word, lanes, detail⟩ = (s1, a) →
    s1.group core slot = some g1 → s1.trapBlock g1.launch ≠ 0 → i < 2 → (g1.prec i).trap = none → (g1.prec i).lanes = lanes →
    ∃ g', OnlyGroup s1 (s.trapFault core slot i lanes ret cls addr opnd cause detail lane) core slot g' ∧
      g'.prec i = { g1.prec i with
        state := .running
        place := ⟨s1.trapBlock g1.launch, s1.trapBlock g1.launch, 0, [], 0, [], false⟩
        trap := some ret, reason := 0, obj := 0, answer := none, arrive := none, drained := none, waitPtrs := [], woken := false
        ready := max (s1.clockOf core + 10) (g1.prec i).ready } ∧
      (∀ k, k ≠ i → g'.prec k = (g1.prec k).stopAtHeader) ∧ g' = { g1 with recs := g'.recs })

/-- TRAP faults its Active lanes with class 17 and its immediate as the detail; BRKPT parks the whole path for the host
handler at the next word, with class 18 (R227); TRET in trap restores the trap-return record, or the place after it with
MOD bit 7, and leaves trap (R229). -/
def Obligations.TrapInstructions : Prop :=
  (∀ (f : FmtI) (s : State) (e : Iss), Runs (.trap f) f.guard e s → exec (.trap f) s = .next (s.issued.trapFault e.core e.slot e.prec
    e.act e.q.place 17 e.q.place.word 0 0 f.imm.toNat (lowestLane e.act))) ∧
  (∀ (f : FmtI) (s s1 : State) (e : Iss) (a : Word64) (g1 : Group), Runs (.brkpt f) f.guard e s →
    s.issued.recordFault e.core e.slot ⟨18, lowestLane e.act, 0, 0, false, e.prec, e.slot, e.core, e.q.place.word, e.q.place.word,
      e.act, f.imm.toNat⟩ = (s1, a) → s1.group e.core e.slot = some g1 → (g1.prec e.prec).lanes = e.act →
    ∃ t g', exec (.brkpt f) s = .next t ∧ OnlyGroup s1 t e.core e.slot g' ∧
      g'.prec e.prec = { g1.prec e.prec with
        state := .parked, place := e.q.place.after, reason := 6, obj := a, waitPtrs := [], cls := 18, woken := false } ∧
      (∀ k, k ≠ e.prec → g'.prec k = (g1.prec k).stopAtHeader) ∧ g' = { g1 with recs := g'.recs }) ∧
  (∀ (f : FmtA) (s : State) (e : Iss) (ret : Place), Runs (.tret f) f.guard e s → e.q.trap = some ret → e.act = e.q.lanes →
    ∃ t g', exec (.tret f) s = .next t ∧ OnlyGroup s.issued t e.core e.slot g' ∧
      g'.prec e.prec = ({ e.q with
        trap := none, place := if f.mod.getLsbD 7 then ret.after else ret
        ready := max (s.clockOf e.core + 10) e.q.ready } : PathRec).stopAtHeader ∧
      (∀ k, k ≠ e.prec → g'.prec k = (e.g.prec k).stopAtHeader) ∧ g' = { e.g with recs := g'.recs }) ∧
  (∀ (f : FmtA) (s : State) (e : Iss), Runs (.tret f) f.guard e s → e.q.trap = none →
    exec (.tret f) s = .next (s.issued.trapFault e.core e.slot e.prec e.q.lanes e.q.place 1 e.q.place.word 0 0 0 (lowestLane e.q.lanes)))

/-! ### Control (R137–R152) -/

/-- What a taken transfer costs (R156). Of the threads of the record that issued it, those that took it, and stand at its target
in no new trap, issue no earlier than 4 cycles after it when the target is in the word and the FETCH hint of its block covers
the taken target, and 10 otherwise; nothing else of their records changes, and no other record. They took it when all of the
path did, or when they are threads of Active that stand elsewhere than the word after would have led to. -/
def Sys2Proof.Claim.TransferWaits : Prop :=
  ∀ (t t1 : State) (r : IssueRef) (x : Nat) (q : PathRec) (act : LaneMask) (i : Instr) (fromReg : Bool) (g : Group) (h : Word64),
    transferWord i = some fromReg → t.group r.core r.slot = some g → t.fetchWord r.core x q.place.block = (.word h, t1) →
    ∃ g', OnlyCore t (t.bubble r x q act i) r.core r.slot (t.core r.core) g' [] ∧ g' = { g with recs := g'.recs } ∧
      ∀ j, g'.prec j =
        (let p := g.prec j
         if p.lanes ≠ 0 ∧ p.trap = q.trap ∧ p.place.word = p.place.block ∧ (if p.lanes = q.lanes then act = q.lanes
             else p.lanes &&& act = p.lanes ∧ { p.place with stack := q.place.stack } ≠ q.place.after) then
           { p with ready := max (t.clockOf r.core + (if fromReg = false ∧ h.getLsbD 1 = true then 4 else 10)) p.ready }
         else p)

/-- A taken transfer of the whole path to one target (R138, R142, R143, R144): BR, BRD and BRX go to its header, popping
the frames of this call depth that it leaves; CALL and CALLX write the address of the next word into D, raise the call
depth and pop nothing; RET drops the frames of its call depth and lowers it. -/
def Sys2Proof.Claim.TakenTransfers : Prop :=
  (∀ (f : FmtJ) (s s1 : State) (e : Iss) (t : Word64) (i : Instr), i ∈ [Instr.br f, .brd f] → Runs i f.guard e s → e.act = e.q.lanes →
    Offset e.q.place.word t f.off → TargetOk s.issued s1 e t →
    Goes i s s1 e { e.q.place with word := t, block := t, len := 0, frames := popOutside t e.q.place.depth e.q.place.frames, arrived := false } SameRegs) ∧
  (∀ (f : FmtA) (s s1 : State) (e : Iss) (t : Word64), Runs (.brx f) f.guard e s → e.act = e.q.lanes →
    (∀ l, l < 32 → e.act.getLsbD l = true → e.g.read f.a 2 l = t) → TargetOk s.issued s1 e t →
    Goes (.brx f) s s1 e { e.q.place with word := t, block := t, len := 0, frames := popOutside t e.q.place.depth e.q.place.frames, arrived := false } SameRegs) ∧
  (∀ (f : FmtJ) (s s1 : State) (e : Iss) (t ret : Word64), Runs (.call f) f.guard e s → e.act = e.q.lanes →
    Offset e.q.place.word t f.off → TargetOk s.issued s1 e t → Offset e.q.place.word ret 1 →
    Goes (.call f) s s1 e { e.q.place with word := t, block := t, len := 0, depth := e.q.place.depth + 1, arrived := false }
      (fun g1 g' => Holds g' e.act f.l 2 false (fun _ => ret) ∧ KeepRegs g1 g' e.act f.l 2)) ∧
  (∀ (f : FmtA) (s s1 : State) (e : Iss) (t ret : Word64), Runs (.callx f) f.guard e s → e.act = e.q.lanes →
    (∀ l, l < 32 → e.act.getLsbD l = true → e.g.read f.a 2 l = t) → TargetOk s.issued s1 e t → Offset e.q.place.word ret 1 →
    Goes (.callx f) s s1 e { e.q.place with word := t, block := t, len := 0, depth := e.q.place.depth + 1, arrived := false }
      (fun g1 g' => Holds g' e.act f.d 2 false (fun _ => ret) ∧ KeepRegs g1 g' e.act f.d 2)) ∧
  (∀ (f : FmtA) (s s1 : State) (e : Iss) (t : Word64), Runs (.ret f) f.guard e s → e.act = e.q.lanes →
    (∀ l, l < 32 → e.act.getLsbD l = true → e.g.read f.a 2 l = t) → TargetOk s.issued s1 e t →
    Goes (.ret f) s s1 e { e.q.place with
      word := t, block := t, len := 0, frames := e.q.place.frames.dropWhile (fun x => x.depth == e.q.place.depth)
      depth := e.q.place.depth - 1, arrived := false } SameRegs)

/-- Taken transfers, where they go and what they cost. -/
def Obligations.Transfers : Prop := TakenTransfers ∧ TransferWaits

/-- A transfer that is not uniform. BRD by a path alone in its group divides it: the lanes that stay fall through in the
record they were in, the taken lanes stand at the target in the other of records 0 and 1, both with the block's
reconvergence header, if it names one, on top of the stack (R140, R243). BR without the launch's UNIFORM_DEMOTE flag, and
CALL, are a uniformity fault of the whole path, class 7 (R138, R139); a target that is no header is an illegal instruction
first (R141, R154). -/
def Obligations.Divergence : Prop :=
  (∀ (f : FmtJ) (s s1 s2 : State) (e : Iss) (t h : Word64) (g2 : Group), Runs (.brd f) f.guard e s → e.act ≠ e.q.lanes → e.prec < 2 →
    Offset e.q.place.word t f.off → e.q.place.after.word ≠ t → TargetOk s.issued s1 e t →
    s1.fetchWord e.core e.g.ctx e.q.place.block = (.word h, s2) → s2.group e.core e.slot = some g2 → s2.backOk e = true →
    (∀ k, k ≠ e.prec → g2.prec k = PathRec.free) → g2.splits = [] → s2.groupIssues e.core e.slot = false →
    ∃ u g', exec (.brd f) s = .next u ∧ OnlyGroup s2 u e.core e.slot g' ∧ g' = { g2 with recs := g'.recs } ∧
      (let stack := match headerReconv e.q.place.block h with
         | none => []
         | some r => (r :: e.q.place.stack).take 4
       let half (lanes : LaneMask) (p : Place) : PathRec :=
         ({ e.q with lanes := lanes, place := p, answer := none, arrive := none, drained := none, waitPtrs := [], woken := false } : PathRec).stopAtHeader
       g'.prec e.prec = half (e.q.lanes &&& ~~~e.act) ({ e.q.place with stack := stack } : Place).after ∧
       g'.prec (1 - e.prec) = half e.act { e.q.place with
         word := t, block := t, len := 0, stack := stack, frames := popOutside t e.q.place.depth e.q.place.frames, arrived := false })) ∧
  (∀ (f : FmtJ) (s s1 : State) (e : Iss) (t : Word64), Runs (.br f) f.guard e s → Offset e.q.place.word t f.off → e.act ≠ e.q.lanes →
    (∀ x, tabFind s1.launches e.g.launch = some x → x.demote = false) → TargetOk s.issued s1 e t →
    ∃ lane, exec (.br f) s = .next (s1.trapFault e.core e.slot e.prec e.q.lanes e.q.place 7 e.q.place.word 0 0 0 lane)) ∧
  (∀ (f : FmtJ) (s s1 : State) (e : Iss) (t : Word64), Runs (.call f) f.guard e s → Offset e.q.place.word t f.off → e.act ≠ e.q.lanes →
    TargetOk s.issued s1 e t →
    ∃ lane, exec (.call f) s = .next (s1.trapFault e.core e.slot e.prec e.q.lanes e.q.place 7 e.q.place.word 0 0 0 lane)) ∧
  (∀ (f : FmtJ) (s s1 : State) (e : Iss) (t w : Word64), ∀ i ∈ [Instr.br f, .brd f, .call f], Runs i f.guard e s →
    Offset e.q.place.word t f.off → t.extractLsb' 62 2 = 0#2 → t.extractLsb' 0 3 = 0#3 →
    s.issued.fetchWord e.core e.g.ctx t = (.word w, s1) → w.extractLsb' 58 6 ≠ 0b111110#6 →
    exec i s = .next (s1.trapFault e.core e.slot e.prec e.q.lanes e.q.place 1 t 0 0 0 (lowestLane e.q.lanes)))

/-- Loops (R145, R146, R148). LOOP with a count other than zero, and LOOPI, push a frame with the count, the header after
the word as its start, the target as its exit and the call depth, and go to the start; a count of zero goes to the exit.
LBRK n leaves the n top frames of the call depth and goes to the exit of the last. After a word, a record whose next
address is the exit of its top frame at this call depth goes to the frame's start with the count one less, or drops the
frame when the count is 1. -/
def Obligations.Loops : Prop :=
  (∀ (f : FmtJ) (s s1 s2 : State) (e : Iss) (n : Word32) (t : Word64) (i : Instr),
    (i = .loop f ∧ n = (e.g.read f.a 1 0).setWidth 32 ∨ i = .loopi f ∧ n = f.l.zeroExtend 32) →
    Runs i f.guard e s → e.act = e.q.lanes → e.q.place.frames.length < 4 → Offset e.q.place.word t f.off →
    TargetOk s.issued s1 e (e.q.place.word + 8) → TargetOk s1 s2 e t →
    Goes i s s2 e (if n = 0 then { e.q.place with
        word := t, block := t, len := 0, frames := popOutside t e.q.place.depth e.q.place.frames, arrived := false }
      else { e.q.place with
        word := e.q.place.word + 8, block := e.q.place.word + 8, len := 0
        frames := ⟨n, e.q.place.word + 8, t, e.q.place.depth⟩ :: e.q.place.frames, arrived := false }) SameRegs) ∧
  (∀ (f : FmtJ) (s s1 : State) (e : Iss) (fs gs : List Frame) (x : Frame), Runs (.lbrk f) f.guard e s → e.act = e.q.lanes →
    e.q.place.frames = fs ++ x :: gs → f.l.toNat = fs.length + 1 → (∀ y ∈ fs ++ [x], y.depth = e.q.place.depth) →
    TargetOk s.issued s1 e x.exit →
    Goes (.lbrk f) s s1 e { e.q.place with
      word := x.exit, block := x.exit, len := 0, frames := popOutside x.exit e.q.place.depth gs, arrived := false } SameRegs) ∧
  (∀ (p : Place) (x : Frame) (fs : List Frame), p.frames = x :: fs → x.depth = p.depth → p.word + 8 = x.exit →
    (x.count ≠ 1 → p.after = { p with
      word := x.start, block := x.start, len := 0, frames := { x with count := x.count - 1 } :: fs, arrived := false }) ∧
    (x.count = 1 → fs = [] → p.after.frames = [] ∧ p.after.word = p.word + 8)) ∧
  (∀ (p : Place), p.frames = [] → p.after.word = p.word + 8 ∧ p.after.stack = p.stack ∧ p.after.depth = p.depth ∧
    (p.word + 8 ≠ p.block + BitVec.ofNat 64 (8 * (p.len + 1)) → p.after = { p with word := p.word + 8, arrived := false }) ∧
    (p.word + 8 = p.block + BitVec.ofNat 64 (8 * (p.len + 1)) →
      p.after = { p with word := p.word + 8, block := p.word + 8, len := 0, arrived := false }))

/-- NOP and YIELD go on to the word after; YIELD also ends the greedy hold of its partition and notes its group as the one
that yielded (R152, R156, R241). EXIT ends its Active lanes: the path goes on without them, or, when it held no others, its
record is free; the group's last threads end the group, and GROUP_END comes next (R151). -/
def Sys2Proof.Claim.NopYieldExit : Prop :=
  Changes .nop 0 (fun e => e.q.place.after) (fun e g' => SameRegs e.g g' ∧ g'.gens = e.g.gens) ∧
  (∀ (f : FmtA) (s : State) (e : Iss), Runs (.yield f) f.guard e s → ∃ t g', exec (.yield f) s = .next t ∧
    OnlyCore s.issued t e.core e.slot { s.core e.core with parts := tabPut (s.core e.core).parts e.g.part ⟨none, some e.slot⟩ } g'
      (g'.reconvEvents e.core e.slot) ∧
    Moves e.g g' e.prec e.q.place.after ∧ SameRegs e.g g' ∧ g'.gens = e.g.gens) ∧
  (∀ (f : FmtA) (s : State) (e : Iss), Runs (.exit f) f.guard e s →
    (e.act ≠ e.q.lanes → ∃ t g' es, exec (.exit f) s = .next t ∧ OnlyCore s.issued t e.core e.slot (s.core e.core) g' es ∧
      (g'.prec e.prec).lanes = e.q.lanes &&& ~~~e.act ∧ (g'.prec e.prec).place = e.q.place.after ∧ SameRegs e.g g') ∧
    (e.act = e.q.lanes → (∀ k, k ≠ e.prec → e.g.prec k = PathRec.free) → tabSorted e.g.recs = true →
      ∃ t g' es, exec (.exit f) s = .next t ∧ OnlyCore s.issued t e.core e.slot (s.core e.core) g' (.groupEnd e.core e.slot :: es) ∧
        g'.ended = true ∧ g'.recs = [] ∧ SameRegs e.g g') ∧
    (e.act = e.q.lanes → (∃ k, k ≠ e.prec ∧ k < 4 ∧ (e.g.prec k).lanes ≠ 0) →
      ∃ t g' es, exec (.exit f) s = .next t ∧ OnlyCore s.issued t e.core e.slot (s.core e.core) g' es ∧
        g'.prec e.prec = PathRec.free ∧ g'.ended = e.g.ended ∧ SameRegs e.g g'))

/-- SPAWN with room in the barn files one thread for each Active lane at the target, with its payload registers, and the
path goes on, each Active lane's generator advanced once; WINNOW files its Active lanes themselves and ends them here
(R149, R150, R246). s2 is the state with the lines of the bundle pinned, in the sets and ways that the bundle keeps. -/
def Sys2Proof.Claim.SpawnWinnow : Prop :=
  (∀ (f : FmtJ) (s s1 s2 : State) (e : Iss) (t : Word64) (ways : List (Nat × Nat)) (g2 : Group), Runs (.spawn f) f.guard e s →
    Offset e.q.place.word t f.off → TargetOk s.issued s1 e t →
    (s1.core e.core).barnRoom (laneCount e.act) (bundleLines (fieldOf f.l 0 4) 0) = true →
    s1.pinBarn e.core (bundleLines (fieldOf f.l 0 4) 0) = (ways, s2) → s2.group e.core e.slot = some g2 →
    ∃ u g' b, exec (.spawn f) s = .next u ∧ u.group e.core e.slot = some g' ∧ Moves g2 g' e.prec (g2.prec e.prec).place.after ∧ SameRegs g2 g' ∧
      (∀ l, l < 32 → g'.gen l = if e.act.getLsbD l then nextGen (g2.gen l) else g2.gen l) ∧
      tabFind (u.core e.core).bundles (s2.core e.core).nextBundle = some b ∧
      b = { threadBundle e .spawn t f.a.toNat (fieldOf f.l 0 4) (fun l => spawnGen (nextGen (e.g.gen l))) with pins := ways } ∧
      (u.core e.core).nextBundle = (s2.core e.core).nextBundle + 1 ∧ ∀ a, memByte u a = memByte s2 a) ∧
  (∀ (f : FmtJ) (s s1 s2 : State) (e : Iss) (t : Word64) (ways : List (Nat × Nat)) (g2 : Group), Runs (.winnow f) f.guard e s →
    Offset e.q.place.word t f.off → TargetOk s.issued s1 e t →
    (s1.core e.core).barnRoom (laneCount e.act) (bundleLines (fieldOf f.l 0 4 + 1) 0) = true →
    s1.pinBarn e.core (bundleLines (fieldOf f.l 0 4 + 1) 0) = (ways, s2) → s2.group e.core e.slot = some g2 →
    e.q.lanes &&& ~~~e.act ≠ 0 → (g2.prec e.prec) = e.q →
    ∃ u g' b, exec (.winnow f) s = .next u ∧ u.group e.core e.slot = some g' ∧ (g'.prec e.prec).lanes = e.q.lanes &&& ~~~e.act ∧
      SameRegs g2 g' ∧ tabFind (u.core e.core).bundles (s2.core e.core).nextBundle = some b ∧
      b = { threadBundle e .winnow t f.a.toNat (fieldOf f.l 0 4 + 1) (fun l => e.g.gen l) with pins := ways } ∧
      ∀ a, memByte u a = memByte s2 a)

/-- NOP, YIELD, EXIT, SPAWN and WINNOW. -/
def Obligations.ThreadsEndAndBegin : Prop := NopYieldExit ∧ SpawnWinnow

/-! ### Loads, stores, atomics, fences and waits (R157–R175) -/

/-- Bytes of a line (R6): a merge takes the bytes of the mask; bytes placed at an offset are read back there; a store that
hits in L1 is read back by the core, leaves every other byte of its line and every other line of that L1 as they were,
marks its bytes unpublished, and changes no byte of memory (R159, R286). -/
def Sys2Proof.Claim.LineBytes : Prop :=
  (∀ (old new : Line) (m : ByteMask) (n : Nat), n < 128 →
    lineByte (mergeLine old new m) n = if m.getLsbD n then lineByte new n else lineByte old n) ∧
  (∀ (off : Nat) (bs : List Byte), off + bs.length ≤ 128 → lineBytes (placeBytes off bs) off bs.length = bs) ∧
  (∀ (s : State) (core x : Nat) (p : Word64) (bs : List Byte) (y : L1Line), s.l1Find core x p = some y →
    pkrRefuses (s.ctx x).pkr y.key .write = false → ptrOff p % 128 + bs.length ≤ 128 →
    ∃ s1 y1, s.l1Write core x p bs .write = .ok s1 ∧ s1.l1Find core x p = some y1 ∧
      lineBytes y1.data (ptrOff p % 128) bs.length = bs ∧
      (∀ n, n < 128 → ¬(ptrOff p % 128 ≤ n ∧ n < ptrOff p % 128 + bs.length) →
        lineByte y1.data n = lineByte y.data n ∧ y1.dirty.getLsbD n = y.dirty.getLsbD n) ∧
      (∀ n, ptrOff p % 128 ≤ n → n < ptrOff p % 128 + bs.length → y1.dirty.getLsbD n = true) ∧
      (∀ q, l1Key x (ptrLineNo q) ≠ l1Key x (ptrLineNo p) → s1.l1Find core x q = s.l1Find core x q) ∧
      (∀ c, c ≠ core → s1.core c = s.core c) ∧ ∀ a, memByte s1 a = memByte s a)

/-- A memory instruction's access, its operands as its word gives them (R158, R159, R161, R165, R174): the instruction, the
scale of OFF12, and what it takes from B. -/
def memWords (f : FmtM) : List (Instr × Nat × (Iss → Nat → BitVec 128)) :=
  [(.ldc f, sizeBytes f.size, fun _ _ => 0), (.stc f, sizeBytes f.size, storeData f), (.lds f, sizeBytes f.size, fun _ _ => 0),
    (.sts f, sizeBytes f.size, storeData f), (.ldm f, sizeBytes f.size, fun _ _ => 0), (.stm f, sizeBytes f.size, storeData f),
    (.ldw f, sizeBytes f.size, fun _ _ => 0), (.stw f, sizeBytes f.size, storeData f), (.atc f, atomBytes f, atomData f),
    (.ats f, atomBytes f, atomData f), (.att f, atomBytes f, atomData f),
    (.slinit f, 128, fun e l => if f.mod = 1 then 0 else (e.g.read f.b 2 l).zeroExtend 128)]

/-- LDC, STC, LDS, STS, LDM, STM, LDW, STW, ATC, ATS, ATT and SLINIT complete when every lane's address passes its checks,
s1 being the state after them (R31, R159, R192). An access that leaves the core, or that an earlier one of its group holds
back, or of its core where it goes to the on-chip map (R267), stays outstanding: it is recorded as issued, with the cycle
from which its result may return (R194); its D registers are empty, EMPTY-LOCAL where every lane stays in the core, and the
record goes on; no register, and no byte of memory, scratchpad or accumulator changes. One that stays within the core is
performed at once (s2): a store is then done, and a load or atomic leaves its result to be written. -/
def Obligations.MemoryIssue : Prop :=
  ∀ (f : FmtM), ∀ x ∈ memWords f, ∀ (o : MemOp) (s s1 : State) (e : Iss) (ls : List LaneAccess) (g1 : Group),
    memOpOf x.1 = some o → Runs x.1 f.guard e s → (o.order = 3 → e.q.answer ≠ none) →
    s.issued.checkLanes e x.1 o f.a (f.off.toInt * (x.2.1 : Int)) (x.2.2 e) = (⟨ls, []⟩, s1) → ls ≠ [] →
    s1.group e.core e.slot = some g1 →
    (let near := ls.all (fun l => s1.isNear e o l.ptr)
     let now := ls.all (fun l => s1.isLocal e o l.ptr) && !(s1.core e.core).accessPending e.slot &&
       !(o.sp == .onchip && (s1.core e.core).crossPending)
     (now = false →
      ∃ t g', exec x.1 s = .next t ∧ t.group e.core e.slot = some g' ∧ Places g1 g' e.prec (g1.prec e.prec).place.after ∧ SameRegs g1 g' ∧
        (∀ c, g'.feOf c = if c ∈ o.dstRegs then (if near then .emptyLocal else .emptyRemote) else g1.feOf c) ∧
        tabFind (t.core e.core).accs (s1.core e.core).nextAcc = some ⟨e.slot, e.prec, e.g.ctx, x.1, e.q.place, ls, false, [], false,
          s1.clockOf e.core + o.latency near⟩ ∧
        (t.core e.core).scratch = (s1.core e.core).scratch ∧ (t.core e.core).tiles = (s1.core e.core).tiles ∧
        (∀ c, c ≠ e.core → t.core c = s1.core c) ∧ ∀ a, memByte t a = memByte s1 a) ∧
     (now = true →
      ∀ (s2 : State) (rs : List (Nat × BitVec 128)) (g2 : Group),
        (s1.onGroup e.core e.slot (fun g => o.dstRegs.foldl (fun g r => g.setFe r (if near then .emptyLocal else .emptyRemote)) g)).performLanes
          e.core e.g.ctx e.slot e.g.team o ls = (⟨rs, [], []⟩, s2) → s2.group e.core e.slot = some g2 →
        (o.kind = .write → ∃ t g', exec x.1 s = .next t ∧ OnlyGroup s2 t e.core e.slot g' ∧ Moves g2 g' e.prec (g2.prec e.prec).place.after ∧
          SameRegs g2 g') ∧
        (o.kind ≠ .write → ∃ t g', exec x.1 s = .next t ∧ t.group e.core e.slot = some g' ∧ Places g2 g' e.prec (g2.prec e.prec).place.after ∧
          SameRegs g2 g' ∧ tabFind (t.core e.core).accs (s2.core e.core).nextAcc =
            some ⟨e.slot, e.prec, e.g.ctx, x.1, e.q.place, [], true, rs, false, s2.clockOf e.core + o.latency true⟩ ∧ ∀ a, memByte t a = memByte s2 a)))

/-- In t the results of an access of s have been written: the access is gone; D holds the results, lane by lane for a v
register, of the threads that have not ended (R151), and once for an s register; every register of D is FULL; no other
register, no byte of scratchpad and no byte of memory has changed (R31, R33, R158). -/
def Delivered (s t : State) (core id : Nat) (a : Access) (o : MemOp) (g : Group) : Prop :=
  ∃ g', t.group core a.slot = some g' ∧
    tabFind (t.core core).accs id = none ∧ (∀ c ∈ o.dstRegs, g'.feOf c = .full) ∧ (∀ c, c ∉ o.dstRegs → g'.feOf c = g.feOf c) ∧
    (isV o.d = true → o.bytes ≤ 4 → (a.results.map Prod.fst).Nodup → ∀ r ∈ a.results, r.1 < 32 → g.lanes.getLsbD r.1 = true →
      g'.vreg o.d.toNat r.1 = r.2.setWidth 32) ∧
    (isS o.d = true → ∀ r ∈ a.results.head?, g'.sreg (o.d.toNat - 0xC0) = r.2.setWidth 64) ∧
    (∀ k l, l < 32 → (∀ r ∈ a.results, r.1 < 32) →
      ¬(isV o.d = true ∧ o.d.toNat ≤ k ∧ k < o.d.toNat + 4 ∧ l ∈ a.results.map Prod.fst ∧ g.lanes.getLsbD l = true) →
      g'.vreg k l = g.vreg k l) ∧
    (∀ k, ¬(isS o.d = true ∧ k = o.d.toNat - 0xC0) → g'.sreg k = g.sreg k) ∧ (∀ k l, g'.predBit k l = g.predBit k l) ∧
    (t.core core).scratch = (s.core core).scratch ∧ ∀ b, memByte t b = memByte s b

/-- LONG_LATENCY_RESULT completes (R31, R33, R158). Of an access that has been performed it writes the results. Of one whose
lanes can all be performed now, and that no earlier access holds back, it performs them (s3) and writes their results with
those that it held; the accesses that this unblocks come next. Of no access it does nothing, and one that an earlier access
holds back stays as it is. -/
def Sys2Proof.Claim.ResultReturns : Prop :=
  (∀ (s : State) (core id : Nat) (a : Access) (o : MemOp) (g : Group), tabFind (s.core core).accs id = some a → a.performed = true →
    memOpOf a.instr = some o → s.group core a.slot = some g → g.lanes ≠ 0 → (∀ k, (g.prec k).reason ≠ 7 ∧ (g.prec k).reason ≠ 8) →
    ∃ t, exec (.longLatencyResult core id) s = .next t ∧ Delivered s t core id a o g) ∧
  (∀ (s s1 s2 s3 : State) (core id : Nat) (a : Access) (o : MemOp) (rs : List (Nat × BitVec 128)) (g g3 : Group),
    tabFind (s.core core).accs id = some a → a.performed = false → memOpOf a.instr = some o → core < 512 →
    (s.core core).accessBlocked id a = false → s.missesNow core a o = false → s.group core a.slot = some g →
    s.askRemote core id a o = ([], s1) → s1.askHomes core id a o = ([], [], s2) →
    s2.performLanes core a.ctx a.slot g.team o a.lanes = (⟨rs, [], []⟩, s3) →
    s3.group core a.slot = some g3 → g3.lanes ≠ 0 → (∀ k, (g3.prec k).reason ≠ 7 ∧ (g3.prec k).reason ≠ 8) →
    ∃ t, exec (.longLatencyResult core id) s = .next t ∧
      Delivered s3 t core id { a with results := a.results ++ rs } o g3) ∧
  (∀ (s : State) (core id : Nat), tabFind (s.core core).accs id = none → exec (.longLatencyResult core id) s = .next s) ∧
  (∀ (s : State) (core id : Nat) (a : Access), tabFind (s.core core).accs id = some a → a.performed = false →
    (s.core core).accessBlocked id a = true → exec (.longLatencyResult core id) s = .next s)

/-- Bytes of cached lines, and results that return to registers. -/
def Obligations.LinesAndResults : Prop := LineBytes ∧ ResultReturns

/-- What a lane's scratchpad access does, when its order moves no line (R159, R165, R166, R260): a load reads the bytes at
its team's base plus the offset, least significant first, and changes nothing; a store writes them and no other byte; an
atomic gives the old value and writes the new one. A store or atomic on a byte that a barrier object marks does nothing and
is refused with class 8 (R177). -/
def Sys2Proof.Claim.ScratchAccess : Prop :=
  ∀ (s : State) (core x slot team : Nat) (o : MemOp) (a : LaneAccess) (tm : Team), o.sp = .scratch → o.wide = false →
    tabFind (s.core core).teams team = some tm →
    (let base := tm.base * 128 + (a.ptr.setWidth 32).toNat
     let old := (List.range o.bytes).map (fun k => tabGet 0 (s.core core).scratch (base + k))
     (o.kind ≠ .read → (s.core core).barrierIn base o.bytes = true → s.performLane core x slot team o a = .error (.cls 8 0)) ∧
     ((o.kind = .read ∨ (s.core core).barrierIn base o.bytes = false) →
      ∃ t, s.performLane core x slot team o a = .ok (extendLoad o old, t) ∧
      OnlyCores s t ∧ (∀ c, c ≠ core → t.core c = s.core c) ∧ t.core core = { s.core core with scratch := (t.core core).scratch } ∧
      (o.kind = .read → t = s) ∧
      (∀ k, ¬(base ≤ k ∧ k < base + o.bytes) → tabGet 0 (t.core core).scratch k = tabGet 0 (s.core core).scratch k) ∧
      (o.kind = .write → ∀ k, k < o.bytes → tabGet 0 (t.core core).scratch (base + k) = BitVec.ofNat 8 (a.data.toNat >>> (8 * k))) ∧
      (o.kind = .atomic → ∀ k, k < o.bytes → tabGet 0 (t.core core).scratch (base + k) =
        BitVec.ofNat 8 (atomicNew o.code (8 * o.bytes) (leNat old) a.data >>> (8 * k)))))

/-- The atomics of R165 on 32 bits: exchange, compare and swap (comparison value below the new one), addition modulo 2^32,
signed and unsigned minimum and maximum, and, or, xor, and the wrapping increment. -/
def Sys2Proof.Claim.AtomicValues : Prop :=
  ∀ (old b c : Word32) (x : BitVec 128), x = (b.zeroExtend 128) →
    atomicNew 0 32 old.toNat x = b.toNat ∧
    atomicNew 1 32 old.toNat ((c ++ b).zeroExtend 128) = (if old = b then c.toNat else old.toNat) ∧
    atomicNew 2 32 old.toNat x = (old + b).toNat ∧
    atomicNew 3 32 old.toNat x = (if old.sle b then old.toNat else b.toNat) ∧
    atomicNew 4 32 old.toNat x = (if b.sle old then old.toNat else b.toNat) ∧
    atomicNew 5 32 old.toNat x = min old.toNat b.toNat ∧ atomicNew 6 32 old.toNat x = max old.toNat b.toNat ∧
    atomicNew 7 32 old.toNat x = (old &&& b).toNat ∧ atomicNew 8 32 old.toNat x = (old ||| b).toNat ∧
    atomicNew 9 32 old.toNat x = (old ^^^ b).toNat ∧ atomicNew 12 32 old.toNat x = (if b.ule old then 0 else (old + 1).toNat)

/-- Accesses of the scratchpad, and the atomic operations. -/
def Obligations.ScratchAndAtomics : Prop := ScratchAccess ∧ AtomicValues

/-- CCTL, FENCE, FENCESC, TFENCE and WAITA complete (R168–R172), once nothing earlier of the group is pending: CCTL.invall
and .wball act on every line of the core's L1, the other forms line by line; FENCE at scope 0 only goes on, and at a wider
scope leaves no line of the context in the core's L1; FENCESC goes on when its order has been taken at a tick; TFENCE goes
on when every tensor-space write of the group is acknowledged, and parks with reason 8 until then; WAITA writes the value
and goes on when its condition holds, and parks with reason 4 on the line that it read when not. -/
def Obligations.FencesAndWaits : Prop :=
  (∀ (f : FmtM) (s : State) (e : Iss), Runs (.cctl f) f.guard e s → (s.core e.core).accessPending e.slot = false →
    (f.size = 2 ∨ f.size = 3 → GoesOn (.cctl f) s (s.issued.cctlAll e.core (f.size == 2)) e SameRegs) ∧
    (f.size ≠ 2 → f.size ≠ 3 → ∀ (ls : List LaneAccess) (s1 : State),
      s.issued.checkLanes e (.cctl f) ⟨.control, .read, 1, 0, 0, false, 0, none, 0xF8⟩ f.a (f.off.toInt * 128) (fun _ => 0) = (⟨ls, []⟩, s1) →
      GoesOn (.cctl f) s (ls.foldl (fun s l => s.cctlLine e f.size.toNat l.ptr) s1) e SameRegs)) ∧
  (∀ (f : FmtM) (s : State) (e : Iss), Runs (.fence f) f.guard e s → (s.core e.core).accessPending e.slot = false →
    (f.scope = 0 → GoesOn (.fence f) s s.issued e SameRegs) ∧
    (f.scope ≠ 0 → GoesOn (.fence f) s ((s.issued.releaseCore e.core e.g.ctx).invalidateL1 e.core e.g.ctx) e SameRegs ∧
      ∀ y ∈ (((s.issued.releaseCore e.core e.g.ctx).invalidateL1 e.core e.g.ctx).core e.core).l1, l1Ctx y.1 ≠ e.g.ctx)) ∧
  (∀ (f : FmtM) (s : State) (e : Iss), Runs (.fencesc f) f.guard e s → e.q.answer ≠ none →
    GoesOn (.fencesc f) s s.issued e SameRegs) ∧
  (∀ (f : FmtM) (s : State) (e : Iss), Runs (.tfence f) f.guard e s →
    ((s.core e.core).tensorPending e.slot = false → GoesOn (.tfence f) s s.issued e SameRegs) ∧
    ((s.core e.core).tensorPending e.slot = true → e.q.answer = none → ∃ t g', exec (.tfence f) s = .next t ∧
      OnlyCore s.issued t e.core e.slot (s.core e.core) g' [] ∧ (g'.prec e.prec).state = .parked ∧ (g'.prec e.prec).reason = 8)) ∧
  (∀ (f : FmtM) (s s0 s1 : State) (e : Iss) (a : LaneAccess) (v l : Nat) (d : Option (Bool × Line)) (g1 : Group), Runs (.waita f) f.guard e s →
    (s.core e.core).accessPending e.slot = false →
    (let o : MemOp := ⟨.control, .read, sizeBytes f.size, f.order.toNat, f.scope.toNat, false, f.size.toNat, none, f.d⟩
     s.issued.checkLanes e (.waita f) o f.a 0 (fun _ => 0) = (⟨[a], []⟩, s0) → s0.waitRead e o a.ptr = .ok (v, l, d, s1) →
     s1.group e.core e.slot = some g1 → o.wide = false →
     (let b := fieldOf (e.g.read f.b 2 a.lane) 0 (8 * o.bytes)
      let holds := match fieldOf f.mod 0 2 with
        | 0 => v != b | 1 => v == b | 2 => decide (b ≤ v) | _ => decide (v < b)
      (holds = true → ∃ t g', exec (.waita f) s = .next t ∧ OnlyGroup s1 t e.core e.slot g' ∧ Moves g1 g' e.prec (g1.prec e.prec).place.after ∧
        Holds g' e.act f.d 2 false (fun _ => BitVec.ofNat 64 v) ∧ KeepRegs g1 g' e.act f.d 2) ∧
      (holds = false → ∃ t g', exec (.waita f) s = .next t ∧ OnlyCore s1 t e.core e.slot (s1.core e.core) g' [] ∧
        g'.prec e.prec = { g1.prec e.prec with
          state := .parked, reason := 4, obj := a.ptr, waitPtrs := [BitVec.ofNat 64 l], woken := false } ∧ SameRegs g1 g'))))

/-! ### Barriers, queues, convergence registers and accumulators (R176–R190) -/

/-- A team's state on a core with its queue register n replaced. -/
def withQueue (k : Core) (team n : Nat) (q : QueueReg) : Core :=
  { k with teams := tabMod k.teams team (fun t => { t with queues := tabSet QueueReg.blank t.queues n q }) }

/-- A core with bytes of its scratchpad replaced. -/
def withScratch (k : Core) (a : Nat) (bs : List Byte) : Core := { k with scratch := tabSetList 0 k.scratch a bs }

/-- BINIT, BEXP, BARV, BWAIT and BTEST complete on the barrier object at core address a, once nothing earlier of the group
is pending (R179, R180, R181). BINIT writes the object with its target and all else zero, its team and its mark; BINIT.free
zeroes it and takes the mark away. BEXP adds to PROM; BARV adds the number of Active lanes to ARR, and to PROM, and gives
PHN in D. BWAIT goes on when PHN is not the phase it names and parks with reason 2 on the offset when it is; BTEST gives 1
or 0. -/
def Sys2Proof.Claim.BarrierWords : Prop :=
  ∀ (f : FmtA) (s : State) (e : Iss) (a : Nat), (s.core e.core).accessPending e.slot = false →
    (s.issued.barOperand e.core e.g.team (e.g.read f.a 2 0) false = .ok a → Runs (.binit f) f.guard e s →
      (s.core e.core).barBusy e.g.team a (e.g.read f.a 2 0) = false →
      (f.mod.getLsbD 7 = true → CoreGoesOn (.binit f) s e { s.core e.core with
        marks := tabSet false (s.core e.core).marks (a / 16) false
        scratch := tabSetList 0 (s.core e.core).scratch a (List.replicate 16 0) } (SameRegs e.g)) ∧
      (f.mod.getLsbD 7 = false → 1 ≤ (e.g.read f.b 2 0).toNat → (e.g.read f.b 2 0).toNat ≤ 1024 →
        CoreGoesOn (.binit f) s e { s.core e.core with
          marks := tabSet false (s.core e.core).marks (a / 16) true
          scratch := tabSetList 0 (s.core e.core).scratch a
            (leBytes 16 (⟨0, 0, 0, (e.g.read f.b 2 0).toNat, 0, 0, e.g.team, false⟩ : BarObj).toNat) } (SameRegs e.g))) ∧
    (s.issued.barOperand e.core e.g.team (e.g.read f.a 2 0) true = .ok a →
      (∀ k, Runs (.bexp f) f.guard e s → (s.core e.core).barUpdate a ((e.g.read f.b 2 0).setWidth 32).toNat 0 0 = some k →
        CoreGoesOn (.bexp f) s e k (SameRegs e.g)) ∧
      (∀ k, Runs (.barv f) f.guard e s → (s.core e.core).barUpdate a ((e.g.read f.b 2 0).setWidth 32).toNat 0 (laneCount e.act) = some k →
        CoreGoesOn (.barv f) s e k (fun g' => Holds g' e.act f.d 2 false (fun _ => BitVec.ofNat 64 ((s.core e.core).bar a).phn) ∧
          KeepRegs e.g g' e.act f.d 2)) ∧
      (Runs (.bwait f) f.guard e s →
        (((s.core e.core).bar a).phn ≠ ((e.g.read f.b 2 0).setWidth 3).toNat → CoreGoesOn (.bwait f) s e (s.core e.core) (SameRegs e.g)) ∧
        (((s.core e.core).bar a).phn = ((e.g.read f.b 2 0).setWidth 3).toNat →
          CoreParks (.bwait f) s e (s.core e.core) 2 (e.g.read f.a 2 0))) ∧
      (Runs (.btest f) f.guard e s → CoreGoesOn (.btest f) s e (s.core e.core) (fun g' =>
        Holds g' e.act f.d 2 false (fun _ => if ((s.core e.core).bar a).phn ≠ ((e.g.read f.b 2 0).setWidth 3).toNat then 1 else 0) ∧
        KeepRegs e.g g' e.act f.d 2)))

/-- A barrier object (R176, R178). Its sixteen bytes hold its fields; an update adds to PROM, LAND and ARR, and is refused
when PROM or LAND would pass 32 bits or ARR the target. At the end of the cycle's updates, when ARR is the target and LAND
is PROM, PHN counts one on modulo 8 and the three counts are zero; otherwise the object stays. -/
def Sys2Proof.Claim.BarrierPhases : Prop :=
  (∀ (b : BarObj), b.prom < 2 ^ 32 → b.land < 2 ^ 32 → b.arr < 2 ^ 11 → b.tgt < 2 ^ 11 → b.phn < 8 → b.pend < 2 ^ 16 → b.team < 64 →
    BarObj.ofNat b.toNat = b) ∧
  (∀ (k : Core) (a p l r : Nat), (k.bar a).tgt ≤ 1024 → (k.bar a).pend < 2 ^ 16 →
    (2 ^ 32 ≤ (k.bar a).prom + p ∨ 2 ^ 32 ≤ (k.bar a).land + l ∨ (k.bar a).tgt < (k.bar a).arr + r → k.barUpdate a p l r = none) ∧
    ((k.bar a).prom + p < 2 ^ 32 → (k.bar a).land + l < 2 ^ 32 → (k.bar a).arr + r ≤ (k.bar a).tgt →
      ∃ k', k.barUpdate a p l r = some k' ∧
        k'.bar a = { k.bar a with prom := (k.bar a).prom + p, land := (k.bar a).land + l, arr := (k.bar a).arr + r } ∧
        (∀ b, ¬(a ≤ b ∧ b < a + 16) → tabGet 0 k'.scratch b = tabGet 0 k.scratch b) ∧ a ∈ k'.barDue)) ∧
  (∀ (s : State) (core a : Nat), (s.core core).barMarked a = true → ((s.core core).bar a).tgt ≤ 1024 →
    (((s.core core).bar a).arr = ((s.core core).bar a).tgt → ((s.core core).bar a).land = ((s.core core).bar a).prom →
      ((s.barSettle core a).core core).bar a =
        { (s.core core).bar a with phn := (((s.core core).bar a).phn + 1) % 8, prom := 0, land := 0, arr := 0 }) ∧
    (((s.core core).bar a).arr ≠ ((s.core core).bar a).tgt ∨ ((s.core core).bar a).land ≠ ((s.core core).bar a).prom →
      s.barSettle core a = s))

/-- The barrier words, and the phases of a barrier object. -/
def Obligations.BarrierObjects : Prop := BarrierWords ∧ BarrierPhases

/-- TBAR and GBAR park their records with reason 2 on arrival, GBAR after a release at device scope, and go on when the
barrier has completed, GBAR after an acquire (R182, R183). -/
def Obligations.TeamGridBarriers : Prop :=
  (∀ (f : FmtA) (s : State) (e : Iss) (l : Launch), Runs (.tbar f) f.guard e s → tabFind s.launches e.g.launch = some l →
    fieldOf f.mod 7 4 < 2 ^ l.roles.length →
    (e.q.answer ≠ none → CoreGoesOn (.tbar f) s e (s.core e.core) (SameRegs e.g)) ∧
    (e.q.answer = none → (s.core e.core).accessPending e.slot = false → CoreParks (.tbar f) s e (s.core e.core) 2 0)) ∧
  (∀ (f : FmtA) (s : State) (e : Iss) (l : Launch), Runs (.gbar f) f.guard e s → tabFind s.launches e.g.launch = some l → l.gbar = true →
    (e.q.answer ≠ none → GoesOn (.gbar f) s (s.issued.invalidateL1 e.core e.g.ctx) e SameRegs) ∧
    (e.q.answer = none → (s.core e.core).accessPending e.slot = false → ∀ g1,
      (s.issued.releaseCore e.core e.g.ctx).group e.core e.slot = some g1 → ∃ t g', exec (.gbar f) s = .next t ∧
        OnlyCore (s.issued.releaseCore e.core e.g.ctx) t e.core e.slot ((s.issued.releaseCore e.core e.g.ctx).core e.core) g' [] ∧
        (g'.prec e.prec).state = .parked ∧ (g'.prec e.prec).reason = 2 ∧ (g'.prec e.prec).arrive = some 16)) ∧
  (∀ (f : FmtA) (s : State) (e : Iss) (l : Launch), Runs (.gbar f) f.guard e s → tabFind s.launches e.g.launch = some l → l.gbar = false →
    exec (.gbar f) s = .next (s.issued.trapFault e.core e.slot e.prec e.q.lanes e.q.place 1 e.q.place.word 0 0 0 (lowestLane e.q.lanes)))

/-- QINIT, QPUSH, QPOP and QALLOW complete on the queue register of MOD[10:7] of a valid configuration, once nothing earlier
of the group is pending (R184, R186, R187). QINIT sets BASE, LOGN, PROD and ALLOW and empties the queue. QPUSH writes the
entry after the newest and counts it, taking one from its role's allowance where its role is bounded; with the queue full or
no allowance left it parks with reason 3, and where a barrier object marks the entry's bytes it faults with class 8 (R177).
QPOP takes the oldest entry, leaves D empty and its value to be written; from an
empty queue it parks. QALLOW adds to a role's allowance, up to 65,535. No record waits on the queue here; where one does, the
oldest is woken besides. -/
def Obligations.Queues : Prop :=
  ∀ (f : FmtA) (s : State) (e : Iss) (tm : Team) (q : QueueReg), (s.core e.core).accessPending e.slot = false →
    tabFind (s.core e.core).teams e.g.team = some tm → q = tabGet QueueReg.blank tm.queues (fieldOf f.mod 7 4) →
    q.pushers = [] → q.poppers = [] →
    (let n := fieldOf f.mod 7 4
     let k := s.core e.core
     (∀ c base m, Runs (.qinit f) f.guard e s → base = (e.g.read f.a 2 0).toNat → c = e.g.read f.b 2 0 → 1 ≤ m → m ≤ 8 →
       c.extractLsb' 0 12 = BitVec.ofNat 12 (2 ^ m) → c.extractLsb' 32 32 = 0#32 → base % 8 = 0 → base + 8 * 2 ^ m ≤ tm.bytes →
       CoreGoesOn (.qinit f) s e (withQueue k e.g.team n ⟨base, m, 0, 0, c.extractLsb' 12 4, true,
         (List.range 4).foldl (fun t j => if (c.extractLsb' 12 4).getLsbD j then tabSet 0 t j (c.extractLsb' 16 16).toNat else t) [], [], []⟩)
         (SameRegs e.g)) ∧
     (q.valid = true →
       (Runs (.qpush f) f.guard e s →
         (q.count = 2 ^ q.logn ∨ (q.prod.getLsbD e.g.role = true ∧ tabGet 0 q.allow e.g.role = 0) →
           CoreParks (.qpush f) s e (withQueue k e.g.team n { q with pushers := [(e.slot, e.prec)] }) 3 (BitVec.ofNat 64 n)) ∧
         (q.count ≠ 2 ^ q.logn → (q.prod.getLsbD e.g.role = true → tabGet 0 q.allow e.g.role ≠ 0) →
           k.barrierIn (tm.base * 128 + (q.base + 8 * ((q.head + q.count) % 2 ^ q.logn))) 8 = true →
           exec (.qpush f) s = .next (s.issued.trapFault e.core e.slot e.prec e.act e.q.place 8
             (BitVec.ofNat 64 (q.base + 8 * ((q.head + q.count) % 2 ^ q.logn))) 0 0 0 (lowestLane e.act))) ∧
         (q.count ≠ 2 ^ q.logn → (q.prod.getLsbD e.g.role = true → tabGet 0 q.allow e.g.role ≠ 0) →
           k.barrierIn (tm.base * 128 + (q.base + 8 * ((q.head + q.count) % 2 ^ q.logn))) 8 = false →
           CoreGoesOn (.qpush f) s e (withQueue (withScratch k
               (tm.base * 128 + (q.base + 8 * ((q.head + q.count) % 2 ^ q.logn))) (leBytes 8 (e.g.read f.a 2 0).toNat)) e.g.team n
             { q with
               count := q.count + 1
               allow := if q.prod.getLsbD e.g.role then tabSet 0 q.allow e.g.role (tabGet 0 q.allow e.g.role - 1) else q.allow })
             (SameRegs e.g))) ∧
       (Runs (.qpop f) f.guard e s →
         (q.count = 0 → CoreParks (.qpop f) s e (withQueue k e.g.team n { q with poppers := [(e.slot, e.prec)] }) 3 (BitVec.ofNat 64 n)) ∧
         (q.count ≠ 0 → ∃ t g', exec (.qpop f) s = .next t ∧ t.group e.core e.slot = some g' ∧ Places e.g g' e.prec e.q.place.after ∧
           SameRegs e.g g' ∧ g'.feOf f.d.toNat = .emptyLocal ∧
           tabFind (t.core e.core).accs k.nextAcc = some ⟨e.slot, e.prec, e.g.ctx, .qpop f, e.q.place, [], true,
             [(0, BitVec.ofNat 128 (leNat (tabGetList 0 k.scratch (tm.base * 128 + (q.base + 8 * q.head)) 8)))], false, s.clockOf e.core + 6⟩ ∧
           (tabFind (t.core e.core).teams e.g.team).map (fun x => tabGet QueueReg.blank x.queues n) =
             some { q with head := (q.head + 1) % 2 ^ q.logn, count := q.count - 1 })) ∧
       (Runs (.qallow f) f.guard e s → CoreGoesOn (.qallow f) s e (withQueue k e.g.team n { q with
         allow := tabSet 0 q.allow (fieldOf f.mod 11 2)
           (min (tabGet 0 q.allow (fieldOf f.mod 11 2) + ((e.g.read f.a 2 0).setWidth 16).toNat) 65535) }) (SameRegs e.g))))

/-- CVINIT gives its convergence register a signing count from 1 to 1,024, at once when no thread has signed the round
(R188). ACALLOC of no tiles answers at once with the number that the team holds in D[15:8]; one that would pass the team's
maximum faults its lanes with class 10; a request that has been answered writes its answer. ACFREE returns the last n tiles
that the team holds, none of them in use, and their elements are zero again (R189, R190, R280). -/
def Obligations.CountsAndTiles : Prop :=
  (∀ (f : FmtA) (s : State) (e : Iss) (n : Nat), Runs (.cvinit f) f.guard e s → n = ((e.g.read f.a 2 0).setWidth 32).toNat →
    1 ≤ n → n ≤ 1024 → CoreGoesOn (.cvinit f) s e { s.core e.core with teams := tabMod (s.core e.core).teams e.g.team (fun t =>
      { t with cvs := tabSet CvReg.blank t.cvs (fieldOf f.mod 7 4) ((tabGet CvReg.blank t.cvs (fieldOf f.mod 7 4)).init n) }) }
      (SameRegs e.g)) ∧
  (∀ (c : CvReg) (n : Nat), (c.signed = 0 → c.init n = ⟨n, none, c.sigs, c.signed, c.rounds⟩) ∧
    (c.signed ≠ 0 → c.init n = ⟨c.count, some n, c.sigs, c.signed, c.rounds⟩)) ∧
  (∀ (f : FmtA) (s : State) (e : Iss) (v : Word64), Runs (.acalloc f) f.guard e s → e.q.answer = some v →
    CoreGoesOn (.acalloc f) s e (s.core e.core) (fun g' => Holds g' e.act f.d 2 false (fun _ => v) ∧ KeepRegs e.g g' e.act f.d 2)) ∧
  (∀ (f : FmtA) (s : State) (e : Iss) (tm : Team), Runs (.acalloc f) f.guard e s → e.q.answer = none →
    tabFind (s.core e.core).teams e.g.team = some tm →
    (tm.acmax < tm.tiles.length + ((e.g.read f.a 2 0).setWidth 32).toNat → exec (.acalloc f) s = .next (s.issued.trapFault e.core e.slot
      e.prec e.act e.q.place 10 e.q.place.word 0 0 0 (lowestLane e.act))) ∧
    ((e.g.read f.a 2 0).setWidth 32 = 0#32 → tm.tiles.length ≤ tm.acmax →
      CoreGoesOn (.acalloc f) s e (s.core e.core) (fun g' =>
        Holds g' e.act f.d 2 false (fun _ => BitVec.ofNat 64 (tm.tiles.length * 2 ^ 8)) ∧ KeepRegs e.g g' e.act f.d 2))) ∧
  (∀ (f : FmtA) (s : State) (e : Iss) (tm : Team) (n : Nat), Runs (.acfree f) f.guard e s →
    tabFind (s.core e.core).teams e.g.team = some tm → n = ((e.g.read f.a 2 0).setWidth 32).toNat → tm.acmin + n ≤ tm.tiles.length →
    (∀ i, i < n → s.issued.tileBusy e.core e.g.team (tm.tiles.length - n + i) = false) → (s.core e.core).acWait = [] →
    CoreGoesOn (.acfree f) s e { s.core e.core with
      teams := tabMod (s.core e.core).teams e.g.team (fun t => { t with tiles := t.tiles.take (tm.tiles.length - n) })
      tiles := (s.core e.core).tiles.filter (fun x => !(tm.tiles.drop (tm.tiles.length - n)).contains (x.1 / 4096)) } (SameRegs e.g))

/-! ### The matrix engine (R195–R212, R272–R278) -/

/-- A core with convergence register n of a team replaced. -/
def withCv (k : Core) (team n : Nat) (c : CvReg) : Core :=
  { k with teams := tabMod k.teams team (fun t => { t with cvs := tabSet CvReg.blank t.cvs n c }) }

/-- The instructions of the matrix engine with their checks and the barrier that they name. -/
def matrixWords (f : FmtA) (e : Iss) : List (Instr × List Word64 × (State → List Check) × Option Word64) :=
  [(.mma f, e.fixedVals f 2, mmaChecks f false e, barField (e.desc f 1) 40),
    (.mmasp f, e.fixedVals f 2, mmaChecks f true e, barField (e.desc f 1) 40),
    (.mldt f, e.fixedVals f 2, mldtChecks f e, barField (e.desc f 1) 0),
    (.mzero f, [], fun _ => [], none),
    (.mepi f, e.fixedVals f 2, mepiChecks f e, barField (e.desc f 1) 0),
    (.mmv f, e.fixedVals f 3, mmvChecks f e, barField (e.desc f 1) 40)]

/-- MMA, MMASP, MLDT, MZERO, MEPI and MMV sign the convergence register of MOD[10:7], whose count has been set, on a tile that
the team holds, when no completed round of it waits to start, its signatures so far are of the same operation, and the checks
pass and name no barrier, and the group has no earlier access to the scratchpad pending (R199, R201, R202, R273): the Active lanes are counted, the signature is kept and the record goes on. The
signature that makes the count completes the round: the register is empty again, and the operation waits in it for the
engine, attributed to this path and ordered after every earlier round of the core; an MMV takes a near-memory slot instead,
with descriptors ds of its operand. -/
def Obligations.MatrixSigning : Prop :=
  ∀ (f : FmtA) (s : State) (e : Iss) (tm : Team) (c : CvReg), ∀ x ∈ matrixWords f e, Runs x.1 f.guard e s →
    tabFind (s.core e.core).teams e.g.team = some tm → c = tabGet CvReg.blank tm.cvs (fieldOf f.mod 7 4) →
    (∀ n, tileOf x.1 = some n → n < tm.tiles.length) → c.count ≠ 0 → c.rounds = [] → (s.core e.core).localPending e.slot = false →
    ((s.core e.core).nears.all (fun y => !(y.2.team == e.g.team && y.2.cv == fieldOf f.mod 7 4)) = true) →
    (∀ g ∈ c.sigs, g.instr = x.1 ∧ g.vals = x.2.1) → s.issued.checksThenBar e (x.2.2.1 s.issued) x.2.2.2 = .ok none →
    (let n := fieldOf f.mod 7 4
     let g : Signature := ⟨x.1, x.2.1, e.slot, e.prec, e.g.age, e.act, e.q.place⟩
     let r : Round := ⟨g, e.q.lanes, s.clockOf e.core, (s.core e.core).nextRound⟩
     (c.signed + laneCount e.act < c.count →
       CoreGoesOn x.1 s e (withCv (s.core e.core) e.g.team n { c with signed := c.signed + laneCount e.act, sigs := c.sigs ++ [g] })
         (SameRegs e.g)) ∧
     (c.signed + laneCount e.act = c.count → c.nextCount = none →
       (x.1 ≠ .mmv f → CoreGoesOn x.1 s e { withCv (s.core e.core) e.g.team n ⟨c.count, none, [], 0, [r]⟩ with
         nextRound := (s.core e.core).nextRound + 1 } (SameRegs e.g)) ∧
       (x.1 = .mmv f → ∀ j, tabFree (s.core e.core).nears 16 = some j → (s.core e.core).nears.length < 16 →
         ∃ ds, CoreGoesOn x.1 s e { withCv (s.core e.core) e.g.team n ⟨c.count, none, [], 0, []⟩ with
           nextRound := (s.core e.core).nextRound + 1
           nears := tabPut (s.core e.core).nears j
             ⟨e.g.ctx, e.g.launch, e.g.team, false, n, r, (s.core e.core).physTile e.g.team x.1, none, false, none, none, ds⟩ } (SameRegs e.g))))

/-- MATRIX_OP_START takes the first completed round whose time has come out of its register and runs it: an MLDT, MEPI or
MZERO with its operands as they stand now, an MMA or MMASP with the chunks that are due by now read. MATRIX_OP_END, in the
operation's last cycle, writes its tile elements and scratchpad bytes, these cut at 16 bytes, and frees the engine from the
next cycle (R273, R274); before that cycle, and while a chunk is still to be read, it does nothing. Here the operation names no
barrier, met no error and writes no byte of a barrier object. -/
def Sys2Proof.Claim.MatrixRuns : Prop :=
  (∀ (s : State) (core team cv tile : Nat) (r : Round) (ups : List ChunkUpset) (t : Team), s.startable core = some (team, cv, r) →
    tabFind (s.core core).teams team = some t → (s.core core).physTile team r.sig.instr = some tile →
    ∃ u op, exec (.matrixOpStart core ups) s = .next u ∧
      (u.core core).matrix.running = some ((s.core core).readChunks (s.clockOf core) 8 op) ∧ op.round = r ∧ op.tile = tile ∧
      op.ctx = t.ctx ∧ op.team = team ∧ op.dead = false ∧ op.events = [] ∧
      (let res := (s.core core).matResult r.sig.instr r.sig.vals (t.base * 128) tile (s.mcheckOf t.launch) (s.clockOf core) ups
       op.run = res.run ∧ op.tileWrites = res.tileWrites ∧ op.scratchWrites = res.scratchWrites ∧ op.ends = s.clockOf core + res.cycles - 1) ∧
      (∀ t', tabFind (u.core core).teams team = some t' → ∀ y ∈ (t'.cv cv).rounds, y.order ≠ r.order) ∧
      (u.core core).tiles = (s.core core).tiles ∧ (u.core core).scratch = (s.core core).scratch ∧
      (∀ c, c ≠ core → u.core c = s.core c) ∧ ∀ a, memByte u a = memByte s a) ∧
  (∀ (s : State) (core : Nat) (op : MatrixOp), (s.core core).matrix.running = some op → op.ends ≤ s.clockOf core → op.dead = false →
    op.run = none → op.events = [] → op.error = none → op.credit = none → op.near = none →
    (∀ w ∈ writePieces op.scratchWrites, (s.core core).barrierIn w.1 w.2.length = false) →
    ∃ u, exec (.matrixOpEnd core) s = .next u ∧ OnlyCores s u ∧ (∀ c, c ≠ core → u.core c = s.core c) ∧
      u.core core = { s.core core with
        matrix := ⟨none, op.ends + 1⟩
        tiles := op.tileWrites.foldl (fun t w => tabSet 0 t w.1 w.2) (s.core core).tiles
        scratch := (writePieces op.scratchWrites).foldl (fun m w => tabSetList 0 m w.1 w.2) (s.core core).scratch }) ∧
  (∀ (s : State) (core : Nat) (op : MatrixOp), (s.core core).matrix.running = some op → (s.clockOf core < op.ends ∨ op.run.isSome = true) →
    exec (.matrixOpEnd core) s = .next s) ∧
  (∀ w : Nat × List Byte, (writePieces [w]).flatMap Prod.snd = w.2 ∧ ∀ p ∈ writePieces [w], p.2 ≠ [] ∧ p.1 / 16 = (p.1 + p.2.length - 1) / 16) ∧
  (∀ (k : Core) (f : FmtA) (vals : List Word64) (base tile policy now : Nat) (ups : List ChunkUpset) (i : Nat), tile < 32 →
    tabGet 0 (((k.matResult (.mzero f) vals base tile policy now ups).tileWrites).foldl (fun t w => tabSet 0 t w.1 w.2) k.tiles) i =
      if tile * 4096 ≤ i ∧ i < (tile + 1) * 4096 then 0 else tabGet 0 k.tiles i)

/-- The chunks of an MMA or MMASP (R205, R207, R274, R275): they are read in ascending K. Each takes every element on by its
products of the bytes of A and B as the scratchpad holds them then; without retry it leaves the operation's last cycle as it
was, and with retry puts it off by two cycles for each chunk sum recomputed; the last gives what is to be written. Here
ch = r.next, and of the element shown no chunk sum is disturbed and no block of A is skipped. -/
def Sys2Proof.Claim.MatrixChunks : Prop :=
  (∀ (k : Core) (f : FmtA) (op : MatrixOp) (r : MmaRun),
    (let o := k.readChunk f op r
     let es := (k.mmaChunk f op.round.sig.vals r).2
     o.ends = op.ends + (if r.policy = 2 then 2 * es.length else 0) ∧ o.events = op.events ++ es ∧ o.scratchWrites = op.scratchWrites ∧
       o.round = op.round ∧ o.tile = op.tile ∧
     (r.next + 1 < (FmtA.elem f).depth / (FmtA.elem f).chunkLen → ∃ r', o.run = some r' ∧ r'.next = r.next + 1 ∧ o.tileWrites = op.tileWrites ∧
       r'.elems = (k.mmaChunk f op.round.sig.vals r).1) ∧
     ((FmtA.elem f).depth / (FmtA.elem f).chunkLen ≤ r.next + 1 → o.run = none ∧ ∀ i, i < 4096 → r.lost.contains i = false →
       (op.tile * 4096 + i, BitVec.ofNat 32 ((k.mmaChunk f op.round.sig.vals r).1.getD i 0)) ∈ o.tileWrites))) ∧
  (∀ (k : Core) (f : FmtA) (vals : List Word64) (r : MmaRun) (i j : Nat), i < 64 → j < 64 → r.bitmap = 0 → f.ty ≠ 14 →
    (∀ u ∈ r.upsets, u.chunk ≠ r.next) →
    (let m := FmtA.elem f
     let n := m.chunkLen * m.bits / 8
     let row (off i : Nat) : Nat := leNat (tabGetList 0 k.scratch (r.base + off + i * m.rowBytes + r.next * n) n)
     let a := row (fieldOf (vals.getD 2 0) 0 20) i
     let b := row (fieldOf (vals.getD 2 0) 32 20) j
     (k.mmaChunk f vals r).1.getD (i * 64 + j) 0 =
         chunk m (f.mod.getLsbD 3) 127 127 0 (r.elems.getD (i * 64 + j) 0)
           ((List.range m.chunkLen).map (fun c => (rowElem m.bits a c, rowElem m.bits b c))) ∧
       (k.mmaChunk f vals r).2 = []))

/-- MATCHECK_FAULT_DELIVERY gives a running record, at a path with a trap block and all of whose threads the event names, its
oldest pending event as a trapping fault of class 13 (R276). MMV_RESULTS_RETURN with an uncorrectable error, or with its rows
read, goes on as R278 says: the first ends the operation in error, the second occupies the engine for its tile write. -/
def Sys2Proof.Claim.MatrixEvents : Prop :=
  (∀ (s : State) (core slot rec' : Nat) (g : Group) (m : MatFault), s.group core slot = some g → rec' < 2 →
    (g.prec rec').state = .running → (g.prec rec').matFaults = [m] → (g.prec rec').lanes &&& m.lanes = (g.prec rec').lanes →
    (g.prec rec').lanes ≠ 0 → (g.prec rec').trap = none → s.trapBlock g.launch ≠ 0 →
    ∃ t g', exec (.matcheckFaultDelivery core slot rec') s = .next t ∧ OnlyGroup s t core slot g' ∧
      g'.faultaddr = m.addr ∧ g'.faultcode = BitVec.ofNat 64 (13 + lowestLane (g.prec rec').lanes * 2 ^ 8) ∧
      (g'.prec rec').trap = some (g.prec rec').place ∧ (g'.prec rec').place.word = s.trapBlock g.launch ∧
      (g'.prec rec').matFaults = [] ∧ SameRegs g g') ∧
  (∀ (s : State) (core slot : Nat) (x : Near), tabFind (s.core core).nears slot = some x → s.nearReady core slot x = true →
    exec (.mmvResultsReturn core slot true) s = .next (s.nearFail core slot x
      ((mmvShape (x.round.sig.vals.getD 4 0)).m * (mmvShape (x.round.sig.vals.getD 4 0)).v * 4) 19 (x.round.sig.vals.getD 2 0)) ∧
    (∀ (s1 : State) (rows : List (List Byte)) (tile : Nat), x.tile = some tile → x.bar = none → x.dead = false →
      s.nearRows core x (x.round.sig.vals.getD 2 0) (mmvShape (x.round.sig.vals.getD 4 0)) = .ok (rows, s1) →
      ∃ t op, exec (.mmvResultsReturn core slot false) s = .next t ∧ (t.core core).matrix.running = some op ∧ op.near = some slot ∧
        op.round = x.round ∧ op.tile = tile ∧ (t.core core).tiles = (s1.core core).tiles ∧ ∀ a, memByte t a = memByte s1 a))

/-- The matrix engine's rounds: their start, their work and their end. -/
def Obligations.MatrixOperations : Prop := MatrixRuns ∧ MatrixChunks ∧ MatrixEvents

/-! ### Copies (R213–R220, R268–R271, R435–R438) -/

/-- The copies that act once: whether they drain, the registers of their descriptor, and what plans them. -/
def copyWords (f : FmtA) (e : Iss) : List (Instr × Bool × Nat × (State → Planned)) :=
  [(.tcpy f, false, 4, fun s => s.planTile e f false), (.tcpo f, false, 4, fun s => s.planTile e f true),
    (.wcpy f, false, 2, fun s => s.planLinear e f), (.drain f, true, 2, fun s => s.planDrain e f)]

/-- A copy that is accepted in s1: what its slot holds. Of one whose sides overlap, the source bytes as they stand (R219), and of
each the descriptors with which it was checked (R349). -/
def accepted (s1 : State) (e : Iss) (i : Instr) (vals : List Word64) (drain : Bool) (p : CopyPlan) : Copy :=
  { ctx := e.g.ctx, launch := e.g.launch, team := e.g.team, slot := e.slot, prec := e.prec, instr := i, pc := e.q.place.word
    weight := ((tabFind s1.launches e.g.launch).map Launch.weight).getD 1, order := (s1.core e.core).nextCopy, time := s1.time
    vals := vals, count := p.ops.length
    todo := p.ops, flying := [], bar := none, credit := p.count, error := none, written := p.hidden, hold := none, marks := []
    waitFull := false, waitDrain := drain, serial := p.serial, span := []
    taken := if p.serial then (s1.setCore e.core (s1.core e.core)).takeBytes e p.ops else []
    descs := (s1.setCore e.core (s1.core e.core)).descsOf e.core e.g.ctx
      (p.ops.flatMap (fun o => o.pieces.flatMap (fun q => q.src.ptr?.toList ++ q.dst.ptr?.toList))) }

/-- TCPY, TCPO, WCPY and DRAIN, not gathered by a convergence register, without .mark and naming no barrier, complete when
their checks pass and a slot is free (R197, R198, R215, R219, R220): s1 is the state after the checks, p the plan that they
find; the copy stands in the lowest free slot, D takes the number of bytes, and the record goes on. With no slot free the
record parks with reason 10. GCPY and SCPY are accepted so with the units of their Active lanes (R218). -/
def Sys2Proof.Claim.CopiesAccepted : Prop :=
  (∀ (f : FmtA) (s s1 : State) (e : Iss) (p : CopyPlan), ∀ x ∈ copyWords f e, Runs x.1 f.guard e s → f.mod.getLsbD 11 = false →
    f.mod.getLsbD 12 = false → f.b = 0xF8 → x.2.2.2 s.issued = .ok p s1 → p.ops ≠ [] → ∀ g1, s1.group e.core e.slot = some g1 →
    (∀ j, (s1.core e.core).copies.length < 128 → tabFree (s1.core e.core).copies 128 = some j →
      ∃ t g', exec x.1 s = .next t ∧ OnlyCore s1 t e.core e.slot { s1.core e.core with
          copies := tabPut (s1.core e.core).copies j (accepted s1 e x.1 (e.fixedVals f x.2.2.1) x.2.1 p)
          nextCopy := (s1.core e.core).nextCopy + 1 } g' (g'.reconvEvents e.core e.slot) ∧
        Moves g1 g' e.prec (g1.prec e.prec).place.after ∧ g'.gens = g1.gens ∧
        Holds g' e.act f.d 2 false (fun _ => BitVec.ofNat 64 p.count) ∧ KeepRegs g1 g' e.act f.d 2) ∧
    ((s1.core e.core).copies.length = 128 → ∃ t g', exec x.1 s = .next t ∧ OnlyCore s1 t e.core e.slot (s1.core e.core) g' [] ∧
      (g'.prec e.prec).state = .parked ∧ (g'.prec e.prec).reason = 10 ∧ SameRegs g1 g')) ∧
  (∀ (f : FmtA) (s s1 : State) (e : Iss) (us : List Unit') (i : Instr) (scatter : Bool),
    (i = .gcpy f ∧ scatter = false ∨ i = .scpy f ∧ scatter = true) → Runs i f.guard e s → f.mod.getLsbD 12 = false →
    (e.desc f 0).getLsbD 63 = false → s.issued.unitLanes e f (4 * 2 ^ fieldOf f.mod 7 2) scatter = (us, [], s1) → us ≠ [] →
    ∀ g1 j, s1.group e.core e.slot = some g1 → (s1.core e.core).copies.length < 128 → tabFree (s1.core e.core).copies 128 = some j →
      (let unit := 4 * 2 ^ fieldOf f.mod 7 2
       let ops := unitOps ((s1.core e.core).scratchAddr e.g.team 0) unit scatter us
       ∃ t g', exec i s = .next t ∧ OnlyCore s1 t e.core e.slot { s1.core e.core with
          copies := tabPut (s1.core e.core).copies j (accepted s1 e i (e.fixedVals f 1) false
            ⟨ops, unit * us.length, unit * us.length - (ops.map LineOp.bytes).foldl (· + ·) 0, false⟩)
          nextCopy := (s1.core e.core).nextCopy + 1 } g' (g'.reconvEvents e.core e.slot) ∧
        Moves g1 g' e.prec (g1.prec e.prec).place.after ∧ g'.gens = g1.gens ∧
        Holds g' e.act f.d 2 false (fun _ => BitVec.ofNat 64 (unit * us.length)) ∧ KeepRegs g1 g' e.act f.d 2))

/-- The work on a copy (R216, R269, R270, R435–R437). COPY_LINE_ACK performs the oldest operation of the copy that is under
way within the module, or ends it with its error. COPY_HOLD_RELEASE of a copy held for its .mark registers, now all FULL,
starts it and leaves them EMPTY-REMOTE. SNAPSHOT_CLAIM of a DRAIN whose lines are translated, all of this module and its drain
region, and unclaimed, takes a snapshot entry for each run and plans one operation a line; SNAPSHOT_EARLY_COPY copies a line
that the entry has not. ENGINE_ARBITRATION_ROUND with nothing in its holding buffer, come to a core with copies that contend,
gives that core as many turns as their largest weight, this one taken, and issues the next contender's next operation, its
sides translated. -/
def Sys2Proof.Claim.CopiesWork : Prop :=
  (∀ (s : State) (core slot : Nat) (c : Copy) (o : FlyOp), tabFind (s.core core).copies slot = some c →
    c.flying.find? (fun f => !f.held && f.tags.isEmpty) = some o →
    (∀ k, exec (.copyLineAck core slot (.failed k)) s =
      .next ((s.endFly core slot o.seq 0 (some (k, o.op.dstPtr (s.teamBase core c.team)))).sendHeld (core / 4))) ∧
    (c.hold = none → exec (.copyLineAck core slot .done) s = .next ((s.performOp core slot c o).sendHeld (core / 4)))) ∧
  (∀ (s : State) (core slot : Nat) (c : Copy), tabFind (s.core core).copies slot = some c → c.waitFull = true →
    (∀ m ∈ c.marks, s.feAt c.ctx m.1 m.2.1 m.2.2.1 = .full) →
    ∃ t, exec (.copyHoldRelease core slot) s = .next t ∧
      (tabFind (t.core core).copies slot).map Copy.waitFull = some false ∧
      (∀ m ∈ c.marks, ∀ g, s.group (s.coreOf c.ctx m.1) m.2.1 = some g →
        ∃ g', t.group (s.coreOf c.ctx m.1) m.2.1 = some g' ∧ g'.feOf m.2.2.1 = .emptyRemote) ∧
      ∀ a, memByte t a = memByte s a) ∧
  (∀ (s s1 s2 : State) (core slot n : Nat) (c : Copy) (p q : Word64) (ls : List (Nat × Nat)), tabFind (s.core core).copies slot = some c →
    c.waitDrain = true → c.hold = none → c.todo = [⟨[⟨.ptr p, .ptr q, n⟩]⟩] → s.drainLines core c.ctx c.descs p q n = .ok (ls, s1) →
    ls.all (fun l => paModule l.1 == s1.moduleId.toNat && s1.inDrain l.2) = true → s1.linesBusy ls = false →
    ((snapRuns (ls.map (fun l => (paLine l.1, paLine l.2)))).map (fun r => controllerOf (r.src * 128))).eraseDups.all (fun k =>
      decide (((snapRuns (ls.map (fun l => (paLine l.1, paLine l.2)))).filter (fun r => controllerOf (r.src * 128) = k)).length ≤ 8)) = true →
    s1.claimRuns core slot (snapRuns (ls.map (fun l => (paLine l.1, paLine l.2)))) = some s2 →
    (tabFind (s2.core core).copies slot).isSome = true →
    ∃ t c', exec (.snapshotClaim core slot) s = .next t ∧ tabFind (t.core core).copies slot = some c' ∧ c'.waitDrain = false ∧
      c'.todo.length = ls.length ∧ c'.count = ls.length ∧ t.migs = s2.migs ∧ ∀ a, memByte t a = memByte s2 a) ∧
  (∀ (s : State) (ctl entry line : Nat) (m : Migration), tabFind s.migs (8 * ctl + entry) = some m →
    exec (.snapshotEarlyCopy ctl entry line) s = .next (s.snapEarly (8 * ctl + entry) (m.src / 128 + line))) ∧
  (∀ (s s1 s2 : State) (n held slot : Nat) (r : EngineRound) (c : Copy) (o placed : LineOp) (rest : List LineOp), n < 128 → s.heldOps n = [] →
    tabFind s.engines n = some r → r.left = none → s.nextContender (4 * n + r.core) r.start = some (held, slot, c) →
    c.todo = o :: rest → o.snapLine = none →
    ({ s with engines := tabPut s.engines n { r with
      left := some (((s.contenders (4 * n + r.core) r.start).map (fun x => x.2.2.weight)).foldl max 0 - 1) } } : State) = s1 →
    (s1.onCore (4 * n + r.core) (fun k => { k with rotate := c.order })).landOp held c.ctx c.descs o = .ok (placed, s2) →
    exec (.engineArbitrationRound n) s = .next (({ (s2.onCopy held slot (fun y =>
      { y with
        todo := rest
        flying := y.flying ++ [⟨placed, ((y.taken.head?).getD none).map o.cutData, s2.nextTag, [], true⟩]
        taken := y.taken.tail })) with nextTag := s2.nextTag + 1 } : State).sendHeld (held / 4)))

/-- The copy words and the copy engine's work. -/
def Obligations.Copies : Prop := CopiesAccepted ∧ CopiesWork

/-! ### Cycles, groups, bins and teams (R170, R236, R241, R244, R249–R251, R254, R255, R261, R262, R333, R334) -/

/-- The clocks. A cycle has three parts. At a module at rest the first advances time by one, x.ptime by one every fourth cycle,
and the clock of each cluster when its share of the nominal 4.0 GHz has come to a whole cycle (80 frequency steps), and takes up
the inputs whose cycle has come; with no word to choose the second lists the heartbeat of the device every 256 cycles and the
system's every 4,096 (R170), each by its own event, which changes no memory. The third, at any module, takes up what homes and
other agents ask, and then what is due comes after it (R299, R376). Among the inputs of a part a write of FTGT comes first, then
a capping step, then a write of PCAP (R456), and a corrected error is none where the same place meets an uncorrectable one (R433). That the heartbeat is counted from cycle 0 is the model's
choice (log 188). -/
def Sys2Proof.Claim.Clocks : Prop :=
  (∀ s : State, s.turn = .over → s.cores = [] → s.ctxs = [] → s.lower = [] → s.launches = [] → s.routers = [] →
    ∃ t on, exec .issueCycle s = .next t ∧
      t = { s with
        time := s.time + 1
        ptime := if (s.time + 1) % 4 = 0 then s.ptime + 1 else s.ptime
        inputs := s.inputs.filter (fun e => decide (s.time + 1 < e.1) || lateInput e.2)
        agenda := s.agenda ++ cycleOrder ((s.inputs.filter (fun e => decide (e.1 ≤ s.time + 1) && !lateInput e.2)).map Prod.snd)
        turn := .words on
        clocks := t.clocks
        clockAcc := t.clockAcc } ∧
      ∀ c, c < 16 →
        (c ∈ on ↔ 80 ≤ tabGet 0 s.clockAcc c + (s.island c).fcur) ∧
        (80 ≤ tabGet 0 s.clockAcc c + (s.island c).fcur →
          tabGet 0 t.clocks c = tabGet 0 s.clocks c + 1 ∧ tabGet 0 t.clockAcc c = tabGet 0 s.clockAcc c + (s.island c).fcur - 80) ∧
        (tabGet 0 s.clockAcc c + (s.island c).fcur < 80 →
          tabGet 0 t.clocks c = tabGet 0 s.clocks c ∧ tabGet 0 t.clockAcc c = tabGet 0 s.clockAcc c + (s.island c).fcur)) ∧
  (∀ (s : State) (on : List Nat), s.turn = .words on → s.cores = [] → s.ctxs = [] → s.qps = [] → s.queues = [] → s.launches = [] →
    s.routers = [] → s.gang = none → s.gangHead = s.gangTail → s.migs = [] → s.dir = [] → s.lower = [] → s.outbox = [] → s.tseq = s.tdone →
    exec .issueCycle s = .next { s with
      turn := .rest [] ((if s.time % 256 = 0 then [.deviceTick] else []) ++ (if s.time % 4096 = 0 then [.systemTick] else [])) }) ∧
  (∀ (s : State) (acquires : List IssueRef) (due : List Instr), s.turn = .rest acquires due →
    exec .issueCycle s = .next { s with
      inputs := s.inputs.filter (fun e => decide (s.time < e.1) || !lateInput e.2)
      agenda := s.agenda ++ cycleOrder ((s.inputs.filter (fun e => decide (e.1 ≤ s.time) && lateInput e.2)).map Prod.snd) ++ due
      issuing := s.issuing ++ acquires
      turn := .over }) ∧
  (∀ (w p : Nat) (ss : List (Nat × Nat)) (v : BitVec 12) (f : BitVec 7) (x : ErrorSite),
    cycleOrder [.pcapWrite v, .cappingStep w ss, .ftgtWrite p f] = [.ftgtWrite p f, .cappingStep w ss, .pcapWrite v] ∧
    cycleOrder [.errorCorrected x, .errorUncorrectable x] = [.errorUncorrectable x] ∧ cycleOrder [.errorCorrected x] = [.errorCorrected x]) ∧
  (∀ s : State, ∃ t, exec .deviceTick s = .next t ∧
    t = { s with deviceTicks := s.deviceTicks + 1, agenda := t.agenda, cores := t.cores }) ∧
  (∀ s : State, ∃ t, exec .systemTick s = .next t ∧
    t = { s with systemTicks := s.systemTicks + 1, agenda := t.agenda, cores := t.cores })

/-- The starvation guard (R241): of the groups of a partition that are ready and have waited 8,192 cycles, the one that is
oldest by admission, x.group and slot issues, and its count begins again; the guard's choice does not depend on which group
issued last or yielded. -/
def Sys2Proof.Claim.StarvationGuard : Prop :=
  ∀ (s : State) (core part : Nat) (slot : Nat) (g : Group), core < 512 → (slot, g) ∈ (s.core core).groups →
    s.group core slot = some g → g.part = part → 8192 ≤ g.wait → s.readyRecs core (slot, g) ≠ [] →
    (∀ h ∈ (s.core core).groups, h ≠ (slot, g) → h.2.part = part → 8192 ≤ h.2.wait → s.readyRecs core h ≠ [] →
      g.age < h.2.age ∨ (g.age = h.2.age ∧ (g.index < h.2.index ∨ (g.index = h.2.index ∧ slot < h.1)))) →
    ∃ s1, OnlyCore s s1 core slot (s.core core) { g with wait := 0 } [] ∧
      exec (.starvationGuard core part) s =
        .next { s1 with issuing := s.issuing ++ (s1.readyRecs core (slot, g)).map (fun i => ⟨core, slot, i⟩) }

/-- Pipes and latencies. A record that is ready for a word that waits on no register has left its pipe, and every result that
the word reads in its lanes has reached its latency (R240). A word chosen for a pipe holds it for its entry's figure, one cycle at least,
for each half with an Active lane (R242), its record is not ready before then, and its result is not read before its
latency; other pipes are as they were. Here are the figures of some words on 32 lanes of a vector pipe (R109, R127, R156). -/
def Sys2Proof.Claim.PipesAndLatencies : Prop :=
  (∀ (s : State) (core slot i : Nat) (g : Group) (w : Instr) (x : Shape), s.recReady core (slot, g) i = true →
    s.peekWord ⟨core, slot, i⟩ = some w → shapeOf w = some x → g.waits x = .go → (g.prec i).lanes &&& g.guardMask (guardOf w) ≠ 0 →
    (g.prec i).state = .running ∧ (g.prec i).ready ≤ s.clockOf core ∧
    ∀ c ∈ readCodes w, ∀ d ∈ tabGet [] g.due c, d.2 ≤ s.clockOf core ∨ d.1 &&& ((g.prec i).lanes &&& g.guardMask (guardOf w)) = 0) ∧
  (∀ (s : State) (k : Core) (part pipe now lat : Nat) (r : IssueRef) (i : Instr) (g : Group), s.peekWord r = some i →
    tabFind k.groups r.slot = some g → lat = (if isUniformWord i then uniformLatency i else (vectorTime i).2) →
    ∃ g', tabFind (s.occupy k part pipe r now).groups r.slot = some g' ∧
      tabGet 0 (s.occupy k part pipe r now).pipes (2 * part + pipe) = now + max 1 (s.pipeTime r i) ∧
      (∀ n, n ≠ 2 * part + pipe → tabGet 0 (s.occupy k part pipe r now).pipes n = tabGet 0 k.pipes n) ∧
      now + max 1 (s.pipeTime r i) ≤ (g'.prec r.prec).ready ∧ (∀ j, j ≠ r.prec → g'.prec j = g.prec j) ∧
      ((g.prec r.prec).lanes &&& g.guardMask (guardOf i) ≠ 0 → lat ≠ 0 →
        (∀ c ∈ writeCodes i, (resultLanes c ((g.prec r.prec).lanes &&& g.guardMask (guardOf i)), now + lat) ∈ tabGet [] g'.due c) ∧
        ∀ c, c ∉ writeCodes i → tabGet [] g'.due c = tabGet [] g.due c)) ∧
  (∀ f : FmtA, vectorTime (.iadd f) = (if f.ty = 2 ∨ f.ty = 3 then (4, 6) else (2, 4)) ∧
    vectorTime (.imul f) = (if f.ty = 2 ∨ f.ty = 3 then (8, 12) else (2, 6)) ∧ vectorTime (.ffma f) = (2, 5) ∧
    vectorTime (.fdiv f) = (16, 24) ∧ vectorTime (.fexp2 f) = (8, 18) ∧ vectorTime (.shfl f) = (2, 6) ∧
    vectorTime (.fold f) = (if f.ty = 8 then (4, 16) else (4, 10)))

/-- The clocks, the issue cycle's guard against starvation, pipes and latencies. -/
def Obligations.IssueCycles : Prop := Clocks ∧ StarvationGuard ∧ PipesAndLatencies

/-- Wakes and reconvergence. A woken path runs on at the word on which it parked (R254); a woken sub-group takes the lower
free record of 0 and 1 (R255), in a context that is resident on its core. Two records that wait at one header merge into the lower
with the threads of both when their call depths and frames are equal, each of their pending matrix-check deliveries with the
threads of both that have it (R276), and otherwise each goes on alone; a record whose header stands in no other record's stack
goes on (R244): each pops the header from its stack, and one that came to it in the middle of a block has arrived there. -/
def Obligations.WakeAndReconverge : Prop :=
  (∀ (s : State) (core slot i : Nat) (g : Group), core < 512 → s.group core slot = some g → (g.prec i).state = .parked →
    ((g.prec i).woken = true ∨ (g.prec i).reason = 4) → (s.ctx g.ctx).state = .resident →
    (∀ a ∈ (s.core core).accs, a.2.slot = slot → a.2.held = false) →
    (i < 2 → GroupDoes (.parkWake core slot i) s core slot (fun g' => OneRecord g g' i
      ({ g.prec i with
        state := .running, reason := 0, obj := 0, waitPtrs := [], woken := false
        answer := if (g.prec i).reason = 5 then some 0 else (g.prec i).answer
        ready := max (s.clockOf core + 4) (g.prec i).ready } : PathRec).stopAtHeader)) ∧
    ((i = 2 ∨ i = 3) → ∀ j, (j = 0 ∧ (g.prec 0).state = .free ∨ j = 1 ∧ (g.prec 0).state ≠ .free ∧ (g.prec 1).state = .free) →
      GroupDoes (.parkWake core slot i) s core slot (fun g' =>
        g'.prec j = ({ g.prec i with
          state := .running, reason := 0, obj := 0, waitPtrs := [], woken := false, answer := none
          ready := max (s.clockOf core + 4) (g.prec i).ready } : PathRec).stopAtHeader ∧
        g'.prec i = PathRec.free ∧ (∀ k, k ≠ i → k ≠ j → g'.prec k = (g.prec k).stopAtHeader) ∧ g' = { g with recs := g'.recs }))) ∧
  (∀ (s : State) (core slot i j : Nat) (g : Group), s.group core slot = some g → g.mergePair = some (i, j) →
    let pop (q : PathRec) : PathRec :=
      ({ q with state := .running, place := { q.place with stack := q.place.stack.tail, arrived := q.place.word != q.place.block } } : PathRec).stopAtHeader
    let same : Prop := (g.prec i).place.depth = (g.prec j).place.depth ∧ (g.prec i).place.frames = (g.prec j).place.frames
    GroupDoes (.reconvMerge core slot) s core slot (fun g' =>
      (same → g'.prec i = pop { g.prec i with
          lanes := (g.prec i).lanes ||| (g.prec j).lanes, matFaults := joinFaults (g.prec i).ownFaults (g.prec j).ownFaults
          ready := max (g.prec i).ready (g.prec j).ready } ∧
        g'.prec j = PathRec.free) ∧
      (¬same → g'.prec i = pop (g.prec i) ∧ g'.prec j = pop (g.prec j)) ∧
      (∀ k, k ≠ i → k ≠ j → g'.prec k = (g.prec k).stopAtHeader) ∧ g' = { g with recs := g'.recs })) ∧
  (∀ (s : State) (core slot i : Nat) (g : Group), s.group core slot = some g → i < 4 → (g.prec i).state = .waiting →
    (∀ h ∈ (g.prec i).place.stack.head?, ∀ k, k < 4 → k ≠ i → (g.prec k).state = .free ∨ h ∉ (g.prec k).place.stack) →
    GroupDoes (.reconvLoneResume core slot i) s core slot (fun g' => OneRecord g g' i
      ({ g.prec i with state := .running, place := { (g.prec i).place with
        stack := (g.prec i).place.stack.tail, arrived := (g.prec i).place.word != (g.prec i).place.block } } : PathRec).stopAtHeader))

/-- Bins and the launch list. A bin whose timer has expired closes: its records, in filing order, go to the tail of the
launch list and the bin is free (R249). The head of the launch list becomes a group when a slot, an index of its team and
registers of a partition are free, one a cycle: record k of the entry is lane k, with the vector registers and the generator
that its bundle holds for it, at the entry's place with an empty stack; a thread that was spilled also brings its s
registers, one that was spawned or winnowed starts with s0 at the launch record (R250, R251). -/
def Sys2Proof.Claim.Bins : Prop :=
  (∀ (s : State) (core bin : Nat) (b : Bin), tabFind (s.core core).bins bin = some b → b.due ≤ s.clockOf core →
    CoreDoes (.binTimerExpiry core bin) s core
      { s.core core with bins := tabDel (s.core core).bins bin, launchList := (s.core core).launchList ++ [⟨b.key, b.refs⟩] }
      [.binGroupLaunch core]) ∧
  (∀ (s : State) (core slot index part : Nat) (e : LaunchEntry) (rest : List LaunchEntry) (t : Team) (l : Launch) (r : Role),
    (s.core core).launchList = e :: rest → (s.core core).launchedAt ≠ s.clockOf core + 1 → (s.core core).barnWait = [] →
    tabFind (s.core core).teams e.key.team = some t → tabFind s.launches t.launch = some l → (s.ctx t.ctx).state = .resident →
    l.roles[e.key.role]? = some r → (s.core core).launchRoom e.key.team r.budget = some (slot, index, part) →
    e.key.place.stack = [] →
    ∃ u g', exec (.binGroupLaunch core) s = .next u ∧ u = { s with agenda := u.agenda, cores := u.cores } ∧
      (u.core core).launchList = rest ∧ (u.core core).launchedAt = s.clockOf core + 1 ∧ u.group core slot = some g' ∧
      g'.recs = [(0, { PathRec.free with state := .running, lanes := BitVec.ofNat 32 (2 ^ e.refs.length - 1), place := e.key.place })] ∧
      g'.ctx = t.ctx ∧ g'.launch = t.launch ∧ g'.team = e.key.team ∧ g'.index = index ∧ g'.role = e.key.role ∧ g'.part = part ∧
      g'.budget = r.budget ∧ g'.age = s.time ∧ g'.fe = [] ∧ g'.due = [] ∧ g'.p = [] ∧ g'.owes = false ∧
      (e.key.kind ≠ .spill → g'.sreg 0 = l.slot ∧ ∀ n, n ≠ 0 → g'.sreg n = 0) ∧
      (∀ (k : Nat) (f : ThreadRef) (b : Bundle), e.refs[k]? = some f → e.refs.length ≤ 32 → tabFind (s.core core).bundles f.bundle = some b →
        tabGet 0 g'.gens k = tabGet 0 b.gens f.lane ∧
        ∀ (c : Nat) (col : Table Word32), (c, col) ∈ b.cols → (∀ x ∈ b.cols, x.1 = c → x = (c, col)) → c < 240 →
          g'.vreg c k = tabGet 0 col f.lane))

/-- What ends, and what is admitted. The slot of a group that has ended is free once nothing addressed to it is outstanding
(R151). A team ends when no group of it is resident and the barn holds none of its threads (R236): its scratchpad bytes and
barrier marks are cleared, its ways and tiles are free. The allocator pins one line of the team admitted first, in the
first set at or after its cursor with fewer than 15 ways pinned, and the cursor goes past it; the last line admits the
team's groups; with fewer pinnable ways free than lines to pin it pins nothing (R262). A team is admitted to the first core, from the cursor on, of its context's clusters that has all it
needs, and the cursor goes past that core (R333). -/
def Sys2Proof.Claim.TeamsComeAndGo : Prop :=
  (∀ (s : State) (core slot : Nat) (g : Group), s.group core slot = some g → g.ended = true → (s.core core).held = [] →
    (∀ a ∈ (s.core core).accs, a.2.slot ≠ slot) → (∀ c ∈ (s.core core).copies, c.2.slot ≠ slot) → s.windowCopies core slot = false →
    ∃ t, exec (.groupEnd core slot) s = .next t ∧ OnlyCores s t ∧
      t.agenda = s.agenda ++ [.teamEnd core g.team, .binGroupLaunch core] ∧ t.group core slot = none ∧
      (∀ c, c ≠ core → t.core c = s.core c) ∧ (∀ j, j ≠ slot → t.group core j = s.group core j) ∧
      (t.core core).teams = (s.core core).teams ∧ (t.core core).scratch = (s.core core).scratch ∧
      (∀ x, x ≠ g.ctx → tabGet 0 (t.core core).carry x = tabGet 0 (s.core core).carry x)) ∧
  (∀ (s : State) (core team : Nat) (t : Team), tabFind (s.core core).teams team = some t → t.waiting = false →
    (∀ g ∈ (s.core core).groups, g.2.team ≠ team) → (∀ b ∈ (s.core core).bundles, b.2.team ≠ team) →
    (∀ b ∈ (s.core core).bins, b.2.key.team ≠ team) → (∀ e ∈ (s.core core).launchList, e.key.team ≠ team) →
    (s.core core).acWait = [] → (s.ctx t.ctx).preq = false →
    ∃ u, exec (.teamEnd core team) s = .next u ∧
      u.agenda = s.agenda ++ [.launchComplete t.launch] ∧ (∀ a, memByte u a = memByte s a) ∧
      tabFind (u.core core).teams team = none ∧ (∀ j, j ≠ team → tabFind (u.core core).teams j = tabFind (s.core core).teams j) ∧
      (∀ a, tabGet 0 (u.core core).scratch a =
        if t.base * 128 ≤ a ∧ a < t.base * 128 + t.bytes then 0 else tabGet 0 (s.core core).scratch a) ∧
      (∀ n, tabGet 0 (u.core core).tiles n = if n / 4096 ∈ t.tiles then 0 else tabGet 0 (s.core core).tiles n) ∧
      (∀ l, tabFind s.launches t.launch = some l → tabFind u.launches t.launch = some { l with live := l.live - 1 })) ∧
  (∀ (s : State) (core j : Nat) (t : Team), (s.core core).pinningTeam = some (j, t) → 7680 < (s.core core).pinTotal + t.toPin →
    exec (.scratchPin core) s = .next s) ∧
  (∀ (s s1 : State) (core j set : Nat) (way : Nat × Nat) (t : Team), (s.core core).pinningTeam = some (j, t) →
    (s.core core).pinTotal + t.toPin ≤ 7680 →
    ((List.range 512).map (fun i => ((s.core core).pinCursor + i) % 512)).find? (fun i => (s.core core).pinned i < 15) = some set →
    s.pinWay core set false = (way, s1) →
    ∃ u, exec (.scratchPin core) s = .next u ∧ CoreIs s1 u core
      { s1.core core with
        pinCursor := (set + 1) % 512
        teams := tabPut (s1.core core).teams j { t with toPin := t.toPin - 1, pins := t.pins ++ [way], waiting := t.toPin ≠ 1 }
        groups := if t.toPin = 1 then (s1.core core).groups.map (fun g => if g.2.team = j then (g.1, { g.2 with age := s1.time }) else g)
          else (s1.core core).groups } u.agenda) ∧
  (∀ (s : State) (id : Nat) (l : Launch) (c : Nat) (ps : List Nat) (b : Nat) (rest : List (Nat × Launch)),
    s.servedLaunches = (id, l) :: rest → tabFind s.launches id = some l → l.gbar = false →
    (∀ e ∈ (s.core c).l1, l1Ctx e.1 ≠ l.ctx) →
    s.keptClusters s.servedLaunches 0 l = 0 →
    ((List.range 512).map (fun i => (s.placeCursor + i) % 512)).find? (fun c =>
      (s.ctx l.ctx).clmask.getLsbD (c / 32) && ((s.core c).offers l).isSome) = some c → (s.core c).offers l = some (ps, b) →
    ∃ u team, exec .teamAdmit s = .next u ∧ u.placeCursor = (c + 1) % 512 ∧
      tabFind u.launches id = some { l with
        nextTeam := l.nextTeam + 1
        live := l.live + 1
        cores := if c ∈ l.cores then l.cores else l.cores ++ [c]
        state := if l.nextTeam + 1 = l.teams then .admitted else .dispatching } ∧
      tabFind (u.core c).teams ((tabFree (s.core c).teams 64).getD 0) = some team ∧
      team.ctx = l.ctx ∧ team.launch = id ∧ team.pos = l.nextTeam ∧ team.base = b ∧ team.bytes = 128 * l.lines ∧
      team.toPin = l.lines ∧ (team.waiting = true ↔ l.lines ≠ 0) ∧
      (∀ a, b * 128 ≤ a → a < b * 128 + 128 * l.lines → tabGet 0 (u.core c).scratch a = 0))

/-- Bins, bundles and teams. -/
def Obligations.BinsAndTeams : Prop := Bins ∧ TeamsComeAndGo

/-! ### LAUNCH, PKEYW, CAPSUB and the launch queues (R226, R230, R231, R325–R330, R335, R348) -/

/-- The word i parks for what is performed at once or at its queue: s2 is the state after its checks; the record is parked
with reason 10 and an object, where it stands; the events are put first and last. -/
def Parks10 (i : Instr) (s s2 : State) (e : Iss) (obj : Word64) (ptrs : List Word64) (answer : Option Word64) (first last : List Instr) : Prop :=
  ∀ g2, s2.group e.core e.slot = some g2 → (g2.prec e.prec).answer = none → ∃ t g', exec i s = .next t ∧ OnlyCores s2 t ∧
    t.agenda = first ++ s2.agenda ++ last ∧ (∀ c, c ≠ e.core → t.core c = s2.core c) ∧ t.group e.core e.slot = some g' ∧
    (∀ j, j ≠ e.slot → t.group e.core j = s2.group e.core j) ∧ g' = { g2 with recs := g'.recs } ∧
    g'.prec e.prec = { g2.prec e.prec with
      state := .parked, reason := 10, obj := obj, waitPtrs := ptrs, answer := answer, woken := answer.isSome } ∧
    ∀ j, j ≠ e.prec → g'.prec j = g2.prec j

/-- PKEYW writes its A operand into the PKR of its group's context and no other register, and parks until that is done,
which it then is; the record, woken, goes on (R230). -/
def Sys2Proof.Claim.ProtectionKeys : Prop :=
  (∀ (f : FmtA) (s : State) (e : Iss), Runs (.pkeyw f) f.guard e s → e.q.answer = none →
    ∃ s2, s2 = { s.issued with ctxs := s2.ctxs } ∧ s2.ctx e.g.ctx = { s.ctx e.g.ctx with pkr := e.g.read f.a 2 0 } ∧
      (∀ x, x ≠ e.g.ctx → s2.ctx x = s.ctx x) ∧
      Parks10 (.pkeyw f) s s2 e 0xF3 [] (some 0) [.parkWake e.core e.slot e.prec] []) ∧
  (∀ (f : FmtA) (s : State) (e : Iss) (v : Word64), Runs (.pkeyw f) f.guard e s → e.q.answer = some v →
    CoreGoesOn (.pkeyw f) s e (s.core e.core) (SameRegs e.g))

/-- CAPSUB (R231). A parent pointer of neither space faults with class 2; a parent that is no object, or whose length the
sub-object passes, with class 3; a slot number whose descriptor is no derivation slot, with class 4. Otherwise the slot's
descriptor is written and the record parks; woken with the pointer to the sub-object, the word writes it to D and goes on.
The descriptor written is valid, a derivation slot, with the parent's space, level and root, the rights that both the parent
and the mask give, the length asked for, and the parent's bias plus the offset (R348). s1 to s3 are the states after the
parent's and the slot's descriptors have been read and after the write. -/
def Sys2Proof.Claim.Capsub : Prop :=
  (∀ (f : FmtA) (s : State) (e : Iss) (v : Word64), Runs (.capsub f) f.guard e s → e.q.answer = some v →
    CoreGoesOn (.capsub f) s e (s.core e.core) (fun g' => Holds g' e.act f.d 2 false (fun _ => v) ∧ KeepRegs e.g g' e.act f.d 2)) ∧
  (∀ (f : FmtA) (s : State) (e : Iss) (p b : Word64), Runs (.capsub f) f.guard e s → e.q.answer = none → p = e.g.read f.a 2 0 →
    b = e.g.read f.b 2 0 →
    (p.getLsbD 63 = true → exec (.capsub f) s = .next (s.issued.lanesFault e e.act 2 p 0 0)) ∧
    (p.getLsbD 63 = false → ∀ (s1 : State) (w : DescWord) (d : Desc), s.issued.lookupDesc e.core e.g.ctx (ptrObj p) = (some w, s1) →
      decodeDesc w (p.getLsbD 62) = some d →
      (d.length < ptrOff p + (b.extractLsb' 0 40).toNat → exec (.capsub f) s = .next (s1.lanesFault e e.act 3 p 0 0)) ∧
      (ptrOff p + (b.extractLsb' 0 40).toNat ≤ d.length → ∀ (s2 : State) (w2 : DescWord),
        s1.lookupDesc e.core e.g.ctx (b.extractLsb' 40 22).toNat = (some w2, s2) →
        (let q : Word64 := BitVec.ofNat 64 ((if p.getLsbD 62 then 2 ^ 62 else 0) + (b.extractLsb' 40 22).toNat * 2 ^ 40)
         (w2.getLsbD 5 = false → exec (.capsub f) s = .next (s2.lanesFault e e.act 4 q 0 0)) ∧
         (w2.getLsbD 5 = true → ∀ s3, s2.writeDesc e.core e.g.ctx (b.extractLsb' 40 22).toNat
            (subDesc w d (f.mod.extractLsb' 7 3) (b.extractLsb' 0 40).toNat (ptrOff p)) = .ok s3 →
            Parks10 (.capsub f) s s3 e 0xF4 [] (some q) [.parkWake e.core e.slot e.prec] []))))) ∧
  (∀ (w : DescWord) (d : Desc) (mask : BitVec 3) (len off : Nat), decodeDesc w (w.getLsbD 1) = some d → len < 2 ^ 40 →
    decodeDesc (subDesc w d mask len off) d.tensor = some
      ⟨d.rd && mask.getLsbD 0, d.wr && mask.getLsbD 1, d.atom && mask.getLsbD 2, true, d.tensor, d.toplvl, len, d.root,
        (d.bias + off) % 2 ^ 40⟩)

/-- PKEYW and CAPSUB. -/
def Obligations.KeysAndCapabilities : Prop := ProtectionKeys ∧ Capsub

/-- LAUNCH and what performs it (R226, R326). A queue pointer that is no control-space pointer faults with class 2, one
that names no enabled queue of the context with class 4. Otherwise the core's release is performed, the record is read, and
the path parks with reason 10 until LAUNCH_ENQUEUE: the sequence number when the record has been published at the tail, bit
63 when the queue is full, bit 62 when it is not enabled any more; while a host producer holds RESERVE the path stays
parked. The word, woken, writes the answer to D and goes on. -/
def Sys2Proof.Claim.LaunchWord : Prop :=
  (∀ (f : FmtA) (s : State) (e : Iss) (v : Word64), Runs (.launch f) f.guard e s → e.q.answer = some v →
    CoreGoesOn (.launch f) s e (s.core e.core) (fun g' => Holds g' e.act f.d 2 false (fun _ => v) ∧ KeepRegs e.g g' e.act f.d 2)) ∧
  (∀ (f : FmtA) (s : State) (e : Iss) (a b : Word64), Runs (.launch f) f.guard e s → e.q.answer = none →
    (s.core e.core).accessPending e.slot = false → a = e.g.read f.a 2 0 → b = e.g.read f.b 2 0 →
    (a.extractLsb' 62 2 ≠ 0 → exec (.launch f) s = .next (s.issued.lanesFault e e.act 2 a 0 0)) ∧
    (a.extractLsb' 62 2 = 0 → ∀ s1, s.issued.checkAddress e.core e.g.ctx e.g.team b false 256 256 .control .read false = (none, s1) →
      (s1.queueAt e.g.ctx a = none → exec (.launch f) s = .next (s1.lanesFault e e.act 4 a 0 0)) ∧
      (s1.queueAt e.g.ctx a ≠ none → ∀ s2, (s1.releaseCore e.core e.g.ctx).recordCheck e b = .ok s2 →
        Parks10 (.launch f) s s2 e 0xE3 [a, b] none [] [.launchEnqueue e.core e.slot e.prec]))) ∧
  (∀ (s s1 : State) (core slot i n : Nat) (g g1 : Group) (a b v : Word64), core < 512 → (s.ctx g.ctx).state ≠ .ending →
    s.group core slot = some g → (g.prec i).state = .parked → (g.prec i).reason = 10 → (g.prec i).obj = 0xE3 → (g.prec i).waitPtrs = [a, b] → (g.prec i).answer = none →
    ((s.queueAt g.ctx a = none ∧ s1 = s ∧ v = BitVec.ofNat 64 (2 ^ 62)) ∨
      (s.queueAt g.ctx a = some n ∧ s.enqueueLaunch core g.ctx n b = .ok (some none, s1) ∧ v = BitVec.ofNat 64 (2 ^ 63)) ∨
      (s.queueAt g.ctx a = some n ∧ ∃ k, s.enqueueLaunch core g.ctx n b = .ok (some (some k), s1) ∧ v = BitVec.ofNat 64 k)) →
    s1.group core slot = some g1 → (g1.prec i).state = .parked → (g1.prec i).woken = false →
    ∃ t g', exec (.launchEnqueue core slot i) s = .next t ∧ OnlyCore s1 t core slot (s1.core core) g' [.parkWake core slot i] ∧
      g'.prec i = { g1.prec i with answer := some v, woken := true } ∧ (∀ j, j ≠ i → g'.prec j = g1.prec j) ∧
      g' = { g1 with recs := g'.recs }) ∧
  (∀ (s s1 s2 s3 : State) (core x n : Nat) (p : Word64) (tail reserve head : Nat), (s.queueWord x (s.queue n).qptr 128) = .ok (tail, s1) →
    s1.queueWord x (s.queue n).qptr 136 = .ok (reserve, s2) → s2.queueWord x (s.queue n).qptr 0 = .ok (head, s3) →
    (reserve ≠ tail → s.enqueueLaunch core x n p = .ok (none, s3)) ∧
    (reserve = tail → tail - head = 2 ^ (s.queue n).logn.toNat → s.enqueueLaunch core x n p = .ok (some none, s3)) ∧
    (reserve = tail → tail - head ≠ 2 ^ (s.queue n).logn.toNat → ∀ (bs : List Byte) (s4 s5 s6 : State), s3.sysRead core x p 256 = .ok (bs, s4) →
      s4.sysWrite core x (slotPtr (s.queue n).qptr (s.queue n).logn.toNat tail) bs = .ok s5 →
      s5.sysWrite core x (ptrWithOff (s.queue n).qptr (ptrOff (s.queue n).qptr + 128)) (leBytes 8 (tail + 1) ++ leBytes 8 (tail + 1)) = .ok s6 →
      s.enqueueLaunch core x n p = .ok (some (some tail), s6.enqueue [.schedulerTailReread n])))

/-- The queue table and the launches in progress. TAIL is reread by the scheduler (R326). The next slot of a queue with no
launch in progress is checked: a record refused is logged with cause 0, an unreadable one with cause 1, and HEAD passes it;
one accepted is a launch in progress (R329). A launch whose dependence counters have reached their targets dispatches (R330),
and with ZT it is then complete (R336). A launch of which every team has been admitted and has ended, and nothing that it
started is outstanding, completes: its cores release, SIGPTR counts one, the launch is gone and HEAD passes its slot
(R335). Clearing EN stops dispatch; setting it starts from HEAD (R325). -/
def Sys2Proof.Claim.LaunchQueues : Prop :=
  (∀ (s s1 : State) (n t : Nat), n < 64 → (s.queue n).usable = true → s.queueWord (s.queue n).ctx.toNat (s.queue n).qptr 128 = .ok (t, s1) →
    ∃ u, exec (.schedulerTailReread n) s = .next u ∧ u = { s1 with queues := u.queues, agenda := s1.agenda ++ [.launchDispatch n] } ∧
      u.queue n = { s1.queue n with tail := t } ∧ ∀ k, k ≠ n → u.queue k = s1.queue k) ∧
  (∀ (s s1 : State) (n id : Nat) (l : Launch), n < 64 → s.queueLive (s.queue n) = true →
    s.launches.find? (fun e => e.2.queue = n ∧ e.2.state ≠ .admitted) = some (id, l) → l.state = .waitingDeps → s.depsMet l = (true, s1) →
    exec (.launchDispatch n) s = .next { s1 with
      launches := tabPut s1.launches id { l with state := if l.zt then .admitted else .dispatching, since := s1.time }
      agenda := s1.agenda ++ (if l.zt then [.launchComplete id] else []) }) ∧
  (∀ (s : State) (n : Nat), n < 64 → s.queueLive (s.queue n) = true → (∀ e ∈ s.launches, e.2.queue = n → e.2.state = .admitted) →
    (s.queue n).next < (s.queue n).tail →
    (let q := s.queue n
     let slot := slotPtr q.qptr q.logn.toNat q.next
     let s0 : State := { s with queues := tabSet Queue.reset s.queues n { q with next := q.next + 1 } }
     (∀ f, s0.schedRead q.ctx.toNat slot 256 .read = .error f →
       exec (.launchDispatch n) s = .next ((s0.logLaunch q.ctx.toNat 1 slot).passSlot n q.next q.ctx.toNat q.qptr)) ∧
     (∀ bs s1 s2, s0.schedRead q.ctx.toNat slot 256 .read = .ok (bs, s1) →
       (s1.launchRefused (Launch.ofRecord n q q.next slot (leNat bs)) (leNat bs) = (true, s2) →
         exec (.launchDispatch n) s = .next ((s2.logLaunch q.ctx.toNat 0 slot).passSlot n q.next q.ctx.toNat q.qptr)) ∧
       (s1.launchRefused (Launch.ofRecord n q q.next slot (leNat bs)) (leNat bs) = (false, s2) →
         exec (.launchDispatch n) s = .next (({ s2 with
           launches := tabPut s2.launches s2.nextLaunch (Launch.ofRecord n q q.next slot (leNat bs))
           nextLaunch := s2.nextLaunch + 1 } : State).dispatch s2.nextLaunch (Launch.ofRecord n q q.next slot (leNat bs))))))) ∧
  (∀ (s s1 s2 s3 : State) (id : Nat) (l : Launch), tabFind s.launches id = some l → l.state = .admitted → l.live = 0 → s.launchQuiet id = true →
    (s.ctx l.ctx).state = .resident → l.cores.foldl (fun s c => s.releaseCore c l.ctx) s = s1 →
    (l.sigptr = 0 ∧ s2 = s1 ∨ l.sigptr ≠ 0 ∧ s1.schedCount l.ctx l.sigptr = .ok s2) →
    (s2.queue l.queue).done = [] → (s2.queue l.queue).head = l.seq →
    (({ s2 with
        launches := tabDel s2.launches id
        queues := tabSet Queue.reset s2.queues l.queue { s2.queue l.queue with head := l.seq + 1, done := [] } } : State).sysWrite schedCore
      l.ctx l.qptr (leBytes 8 (l.seq + 1))) = .ok s3 →
    exec (.launchComplete id) s = .next { s3 with agenda := s3.agenda ++ [.launchDispatch l.queue] }) ∧
  (∀ (s : State) (n : Nat), n < 64 → ∃ t, exec (.queueDisable n) s = .next t ∧ t = { s with queues := t.queues } ∧
    t.queue n = { s.queue n with en := false } ∧ ∀ k, k ≠ n → t.queue k = s.queue k) ∧
  (∀ (s : State) (n : Nat), n < 64 → (s.queue n).en = false → 1 ≤ (s.queue n).logn.toNat → (s.queue n).logn.toNat ≤ 12 →
    (s.queueBusy n = true → ∃ t, exec (.queueEnable n) s = .next t ∧
      t = { s with queues := t.queues, agenda := s.agenda ++ [.schedulerTailReread n] } ∧ t.queue n = { s.queue n with en := true } ∧
      ∀ k, k ≠ n → t.queue k = s.queue k) ∧
    (s.queueBusy n = false → ∀ h s1, ({ s with
        queues := tabSet Queue.reset s.queues n { s.queue n with en := true }
        launches := s.launches.filter (fun l => !(l.2.queue == n && l.2.state == LaunchState.waitingDeps)) } : State).queueWord
          (s.queue n).ctx.toNat (s.queue n).qptr 0 = .ok (h, s1) →
      ∃ t, exec (.queueEnable n) s = .next t ∧ t = { s1 with queues := t.queues, agenda := s1.agenda ++ [.schedulerTailReread n] } ∧
        t.queue n = { s.queue n with en := true, next := h, head := h, tail := h, done := [] } ∧ ∀ k, k ≠ n → t.queue k = s1.queue k))

/-- LAUNCH, the launch queues and launches in progress. -/
def Obligations.Launches : Prop := LaunchWord ∧ LaunchQueues

/-! ### Contexts (R323, R324, R337–R343, R354, R387) -/

/-- t is s with one context-table entry become c, and the events es put last. -/
def CtxIs (s t : State) (x : Nat) (c : Context) (es : List Instr) : Prop :=
  t = { s with ctxs := t.ctxs, agenda := s.agenda ++ es } ∧ t.ctx x = c ∧ ∀ y, y ≠ x → t.ctx y = s.ctx y

/-- The life of a context. Setting VALID of a free context makes it resident, with the reset value of its cluster map, PKR 0,
log registers 0, and no window or chain of an earlier life (R323, R354, R387). Clearing VALID of one that is resident or
saved makes it ending, of one that is saving or restoring lets that go on to its end first (R324). An ending context whose
part is away and of which nothing is outstanding becomes free, and its launches are gone. -/
def Sys2Proof.Claim.ContextLife : Prop :=
  (∀ (s : State) (x : Nat), x < 64 → (s.ctx x).state = .free → (∀ n, n < 64 → (s.queue n).usable = true → (s.queue n).ctx.toNat ≠ x) →
    ∃ t, exec (.contextValidate x) s = .next t ∧
      t = { s with
        ctxs := t.ctxs
        windows := s.windows.filter (fun w => w.1 / 256 != x)
        chains := s.chains.filter (fun w => w.1 / 256 != x) } ∧
      t.ctx x = { s.ctx x with
        valid := true, state := .resident, pkr := 0, log := LogRegs.zero, cmap := 0xFEDCBA9876543210, endAfter := false, away := false
        saveFailed := false } ∧
      ∀ y, y ≠ x → t.ctx y = s.ctx y) ∧
  (∀ (s : State) (x : Nat), x < 64 →
    ((s.ctx x).state = .resident ∨ (s.ctx x).state = .saved → ∃ t, exec (.contextEnd x) s = .next t ∧
      CtxIs s t x { s.ctx x with valid := false, state := .ending } [.contextFree x]) ∧
    ((s.ctx x).state = .saving ∨ (s.ctx x).state = .restoring → ∃ t, exec (.contextEnd x) s = .next t ∧
      CtxIs s t x { s.ctx x with valid := false, endAfter := true } [])) ∧
  (∀ (s : State) (x : Nat), x < 64 → (s.ctx x).state = .ending → (s.ctx x).away = true → (s.discard x).arrivals x = [] →
    (∀ r ∈ (s.discard x).lower, r.2.ctx ≠ x) →
    ∃ t, exec (.contextFree x) s = .next t ∧
      t.ctx x = { (s.discard x).ctx x with
        valid := false, state := .free, preq := false, rreq := false, away := false, endAfter := false } ∧
      (∀ y, y ≠ x → t.ctx y = (s.discard x).ctx y) ∧ (∀ l ∈ t.launches, l.2.ctx ≠ x) ∧
      (∀ l ∈ (s.discard x).launches, l.2.ctx ≠ x → l ∈ t.launches) ∧ (∀ c, c ∈ (s.discard x).awayCores x → t.core c = Core.idle) ∧
      (∀ c, c < 512 → t.core c = (s.discard x).core c) ∧ ∀ a, memByte t a = memByte (s.discard x) a)

/-- Pre-emption (R337–R342). A request sets PREQ; a resident context with no team resident of a launch
without PREEMPT is saving from then on, and otherwise it waits. Once every record of a saving context has stopped, its part
of each core is moved away and the header and directory are written: STATE is saved and PREQ is 0; one whose VALID was
cleared meanwhile is ending. s1 is the state after its parts have moved. -/
def Sys2Proof.Claim.Preemption : Prop :=
  (∀ (s : State) (x : Nat), x < 64 → (s.ctx x).state = .resident →
    ((∀ c ∈ s.cores, c.1 < 512 → ∀ t ∈ c.2.teams, t.2.ctx = x → ∃ l, tabFind s.launches t.2.launch = some l ∧ l.preempt = true) →
      ∃ t, exec (.preemptRequest x) s = .next t ∧ CtxIs s t x { s.ctx x with preq := true, state := .saving } [.preemptSave x]) ∧
    ((∃ c ∈ s.cores, c.1 < 512 ∧ ∃ t ∈ c.2.teams, t.2.ctx = x ∧ ∃ l, tabFind s.launches t.2.launch = some l ∧ l.preempt = false) →
      ∃ t, exec (.preemptRequest x) s = .next t ∧ CtxIs s t x { s.ctx x with preq := true } [])) ∧
  (∀ (s s1 s2 : State) (x : Nat), x < 64 → (s.ctx x).state = .saving → s.teamsStopped x = true → s.leave x = s1 →
    ({ s1 with ctxs := tabSet Context.reset s1.ctxs x { s1.ctx x with state := .saved, preq := false } } : State).writeSave x = s2 →
    ((s2.ctx x).endAfter = false → exec (.preemptSave x) s = .next s2) ∧
    ((s2.ctx x).endAfter = true → ∃ t, exec (.preemptSave x) s = .next t ∧
      CtxIs s2 t x { s2.ctx x with state := .ending, endAfter := false } [.contextFree x])) ∧
  (∀ (s : State) (x : Nat) (c : Nat × Core), c ∈ s.cores → c.1 < 512 → s.teamsStopped x = true →
    (∀ g ∈ c.2.groups, g.2.ctx = x → ∀ q ∈ g.2.recs, q.2.state = .running → q.2.place.word = q.2.place.block) ∧
    ∀ a ∈ c.2.accs, a.2.ctx = x → a.2.ordered = true → ∃ b ∈ c.2.accs, b.2.slot = a.2.slot ∧ b.2.held = true)

/-- What a context that is away still receives, and its restore (R339, R343). SAVED_ARRIVAL completes: the arrival, one of those
that the header's PEND counts, is applied to its part where it is, as its own event applies it, and the save area of a saved
context is written again; the results of a load or atomic that has been performed stand in the part's registers. Of no arrival
only the save area is written. A restore request sets RREQ. A saved context with RREQ whose sections all find a place passes
through restoring, each section on the core that the new map gives; then, every core of it having invalidated its L1, it is
resident and RREQ is 0. -/
def Sys2Proof.Claim.Restore : Prop :=
  (∀ (s : State) (x item : Nat), x < 64 → (s.ctx x).away = true →
    (∀ c i, (s.arrivals x)[item]? = some (.access c i) →
      (∃ u, exec (.longLatencyResult c i) s = .next u ∧ exec (.savedArrival x item) s = .next (u.rewriteSave x)) ∧
      ∀ (a : Access) (o : MemOp) (g : Group), tabFind (s.core c).accs i = some a → a.performed = true → memOpOf a.instr = some o →
        s.group c a.slot = some g → g.lanes ≠ 0 → (∀ k, (g.prec k).reason ≠ 7 ∧ (g.prec k).reason ≠ 8) →
        ∃ u, Delivered s u c i a o g ∧ exec (.savedArrival x item) s = .next (u.rewriteSave x)) ∧
    (∀ c j, (s.arrivals x)[item]? = some (.line c j) →
      ∃ u, exec (.copyLineAck c j .done) s = .next u ∧ exec (.savedArrival x item) s = .next (u.rewriteSave x)) ∧
    (∀ c j, (s.arrivals x)[item]? = some (.near c j) →
      ∃ u, exec (.mmvResultsReturn c j false) s = .next u ∧ exec (.savedArrival x item) s = .next (u.rewriteSave x)) ∧
    (∀ c j, (s.arrivals x)[item]? = some (.step c j) →
      ∃ u, exec (.stepOutAck c j .done) s = .next u ∧ exec (.savedArrival x item) s = .next (u.rewriteSave x)) ∧
    ((s.arrivals x)[item]? = none → exec (.savedArrival x item) s = .next (s.rewriteSave x))) ∧
  (∀ (s : State) (x : Nat), ((s.ctx x).state = .saved → s.rewriteSave x = s.writeSave x) ∧ ((s.ctx x).state ≠ .saved → s.rewriteSave x = s)) ∧
  (∀ (s : State) (x : Nat), x < 64 → ∃ t, exec (.restoreRequest x) s = .next t ∧
    CtxIs s t x { s.ctx x with rreq := true } [.contextRestore x]) ∧
  (∀ (s : State) (x : Nat) (chosen : List (Nat × Nat)), x < 64 → (s.ctx x).state = .saved → (s.ctx x).rreq = true →
    s.chooseClusters x (s.awayClusters x) [] = some chosen →
    ∃ t, exec (.contextRestore x) s = .next t ∧ CtxIs (s.loadImages x chosen) t x { (s.loadImages x chosen).ctx x with state := .restoring } [.contextRestore x]) ∧
  (∀ (s s1 : State) (x : Nat), x < 64 → (s.ctx x).state = .restoring → (s.coresOf x).foldl (fun s k => s.invalidateL1 k x) s = s1 →
    (s1.ctx x).endAfter = false → (s1.ctx x).preq = false →
    ∃ t, exec (.contextRestore x) s = .next t ∧ CtxIs s1 t x { s1.ctx x with state := .resident, rreq := false } [])

/-- The life of a context, its pre-emption and its restore. -/
def Obligations.Contexts : Prop := ContextLife ∧ Preemption ∧ Restore

/-! ### Configuration, clocks and power, boot (R7, R323, R325, R346, R353, R358, R386, R409, R410, R448–R456) -/

/-- A write of a configuration field takes the bits that the field has and changes nothing else (R7). A context-table field
is ignored while its context is resident, saving, restoring or ending (R323), a root-table field while it is resident, saving
or restoring (R346), a region size while any context is (R22), a queue-table field while EN is 1 or a launch of the queue is in
progress (R325), a migration field while EN is 1 (R358), FTO outside 1,000 to 10^9 (R386). PREQ and RREQ take 1 as the request
that the scheduler acts on, and 0 clears them (R323). -/
def Sys2Proof.Claim.FieldWrites : Prop :=
  (∀ (s : State) (x : Nat) (v : Word64), x < 64 → ∀ w ∈ ([(.ctxJob x, fun c => { c with job := v.setWidth 16 }),
      (.ctxCos x, fun c => { c with cos := v.setWidth 4 }), (.ctxClmask x, fun c => { c with clmask := v.setWidth 16 }),
      (.ctxSave x, fun c => { c with save := v }), (.ctxFlog x, fun c => { c with flog := v })] : List (ConfigReg × (Context → Context))),
    ((s.ctx x).state = .free ∨ (s.ctx x).state = .saved → ∃ t, exec (.configRegisterWrite w.1 v) s = .next t ∧ CtxIs s t x (w.2 (s.ctx x)) []) ∧
    ((s.ctx x).state ≠ .free → (s.ctx x).state ≠ .saved → exec (.configRegisterWrite w.1 v) s = .next s)) ∧
  (∀ (s : State) (n : Nat) (v : Word64), n < 64 → ∀ w ∈ ([(.queueQptr n, fun q => { q with qptr := v }),
      (.queueLogn n, fun q => { q with logn := v.setWidth 4 }), (.queueCtx n, fun q => { q with ctx := v.setWidth 6 })] : List (ConfigReg × (Queue → Queue))),
    ((s.queue n).en = false → (∀ l ∈ s.launches, l.2.queue = n → l.2.state = .waitingDeps) → ∃ t, exec (.configRegisterWrite w.1 v) s = .next t ∧
      t = { s with queues := t.queues } ∧ t.queue n = w.2 (s.queue n) ∧ ∀ k, k ≠ n → t.queue k = s.queue k) ∧
    (((s.queue n).en = true ∨ ∃ l ∈ s.launches, l.2.queue = n ∧ l.2.state ≠ .waitingDeps) → exec (.configRegisterWrite w.1 v) s = .next s)) ∧
  (∀ (s : State) (x : Nat) (v : Word64), x < 64 → ∀ w ∈ ([(.rootOtbase x, fun r => { r with otbase := (v.extractLsb' 0 56).toNat }),
      (.rootOnum x, fun r => { r with onum := (v.extractLsb' 0 22).toNat })] : List (ConfigReg × (Root → Root))),
    ((s.ctx x).state = .free ∨ (s.ctx x).state = .saved ∨ (s.ctx x).state = .ending → ∃ t, exec (.configRegisterWrite w.1 v) s = .next t ∧
      t = { s with roots := t.roots } ∧ t.root x = w.2 (s.root x) ∧ ∀ y, y ≠ x → t.root y = s.root y) ∧
    ((s.ctx x).state = .resident ∨ (s.ctx x).state = .saving ∨ (s.ctx x).state = .restoring → exec (.configRegisterWrite w.1 v) s = .next s)) ∧
  (∀ (s : State) (c e : Nat) (v : Word64), c < 36 → e < 8 → ∀ w ∈ ([(.migSrc c e, fun m => { m with src := (v.extractLsb' 0 56).toNat }),
      (.migDst c e, fun m => { m with dst := (v.extractLsb' 0 56).toNat }), (.migLines c e, fun m => { m with lines := (v.setWidth 32).toNat }),
      (.migMode c e, fun m => { m with mode := v.getLsbD 0 })] : List (ConfigReg × (Migration → Migration))),
    ((s.mig c e).en = false → ∃ t, exec (.configRegisterWrite w.1 v) s = .next t ∧ t = { s with migs := t.migs } ∧
      t.mig c e = w.2 (s.mig c e) ∧ ∀ c' e', e' < 8 → ¬(c' = c ∧ e' = e) → t.mig c' e' = s.mig c' e') ∧
    ((s.mig c e).en = true → exec (.configRegisterWrite w.1 v) s = .next s)) ∧
  (∀ (s : State) (v : Word64),
    (∀ x, x < 64 → ∃ t, exec (.configRegisterWrite (.resume x) v) s = .next t ∧ t = { s with resume := t.resume } ∧
      (∀ i, (t.resumeWord x).getLsbD i = (v.getLsbD i && (i ≤ 10 || (16 ≤ i && i ≤ 32) || i == 63))) ∧ ∀ y, y ≠ x → t.resumeWord y = s.resumeWord y) ∧
    (∀ k, k < 16 → ∃ t, exec (.configRegisterWrite (.cosMask k) v) s = .next t ∧ t = { s with cosMasks := t.cosMasks } ∧
      ∀ j, tabGet 0xFFFF t.cosMasks j = if j = k then v.setWidth 16 else tabGet 0xFFFF s.cosMasks j) ∧
    exec (.configRegisterWrite .hostCos v) s = .next { s with hostCos := v.setWidth 4 } ∧
    (∀ r d, r < 8 → d < 256 → ∃ t, exec (.configRegisterWrite (.route r d) v) s = .next t ∧ t = { s with routers := t.routers } ∧
      t.router r = { s.router r with routes := (t.router r).routes } ∧ (∀ q, q ≠ r → t.router q = s.router q) ∧
      ∀ j, tabGet 0 (t.router r).routes j = if j = d then (v.setWidth 4).toNat else tabGet 0 (s.router r).routes j) ∧
    (1000 ≤ v.toNat → v.toNat ≤ 1000000000 → exec (.configRegisterWrite .fto v) s = .next { s with fto := v.toNat }) ∧
    (v.toNat < 1000 ∨ 1000000000 < v.toNat → exec (.configRegisterWrite .fto v) s = .next s) ∧
    exec (.configRegisterWrite .gangTail v) s = .next { s with gangTail := v.toNat } ∧
    (∀ x, exec (.configRegisterWrite (.errLog x) v) s = .next { s with errLog := v, errLogCtx := x % 64 }) ∧
    exec (.configRegisterWrite .moduleId v) s = .next { s with moduleId := v.setWidth 8 } ∧
    exec (.configRegisterWrite .ptime v) s = .next { s with ptime := v } ∧
    (∀ k, k < 3 → (∀ x, x < 64 → (s.ctx x).state = .free ∨ (s.ctx x).state = .saved ∨ (s.ctx x).state = .ending) →
      ∃ t, exec (.configRegisterWrite (.carve k) v) s = .next t ∧ t = { s with carves := t.carves } ∧
        ∀ j, tabGet 0 t.carves j = if j = k then v.toNat else tabGet 0 s.carves j) ∧
    (∀ k x, x < 64 → (s.ctx x).state = .resident ∨ (s.ctx x).state = .saving ∨ (s.ctx x).state = .restoring →
      exec (.configRegisterWrite (.carve k) v) s = .next s) ∧
    (∀ x, x < 64 → (v.getLsbD 0 = true → exec (.configRegisterWrite (.ctxPreq x) v) s = exec (.preemptRequest x) s ∧
        exec (.configRegisterWrite (.ctxRreq x) v) s = exec (.restoreRequest x) s) ∧
      (v.getLsbD 0 = false → ∃ t u, exec (.configRegisterWrite (.ctxPreq x) v) s = .next t ∧ CtxIs s t x { s.ctx x with preq := false } [] ∧
        exec (.configRegisterWrite (.ctxRreq x) v) s = .next u ∧ CtxIs s u x { s.ctx x with rreq := false } []))) ∧
  (∀ (s : State) (n k : Nat) (v : Word64), k < 4 →
    (n < 16 → ∃ t, exec (.configRegisterWrite (.gangWord n k) v) s = .next t ∧ t = { s with gangSlots := t.gangSlots } ∧
      (tabGet 0 t.gangSlots n).extractLsb' (64 * k) 64 = v ∧
      (∀ j, j < 16 → j ≠ k → (tabGet 0 t.gangSlots n).extractLsb' (64 * j) 64 = (tabGet 0 s.gangSlots n).extractLsb' (64 * j) 64) ∧
      ∀ m, m ≠ n → tabGet 0 t.gangSlots m = tabGet 0 s.gangSlots m) ∧
    (n < 65536 → ∃ t, exec (.configRegisterWrite (.region n k) v) s = .next t ∧ t = { s with regions := t.regions } ∧
      (∀ i, i < 64 → (tabGet 0 t.regions n).getLsbD (64 * k + i) =
        if 64 * k + i ≤ 3 ∨ (16 ≤ 64 * k + i ∧ 64 * k + i ≤ 23) ∨ (32 ≤ 64 * k + i ∧ 64 * k + i ≤ 159) then v.getLsbD i
        else (tabGet 0 s.regions n).getLsbD (64 * k + i)) ∧
      ∀ m, m ≠ n → tabGet 0 t.regions m = tabGet 0 s.regions m)) ∧
  (∀ (s : State) (n : Nat) (v : Word64), n < 4096 →
    (∃ t, exec (.configRegisterWrite (.qpWord n 0) v) s = .next t ∧ t = { s with qps := t.qps } ∧ t.qp n = { s.qp n with
      mtu := (v.extractLsb' 3 2).toNat, pd := (v.extractLsb' 8 8).toNat, job := (v.extractLsb' 16 16).toNat
      rqpn := (v.extractLsb' 32 24).toNat, port := (v.extractLsb' 56 3).toNat }) ∧
    ((s.qp n).valid = false → ∃ t, exec (.configRegisterWrite (.qpWord n 1) v) s = .next t ∧ t = { s with qps := t.qps } ∧
      t.qp n = { s.qp n with spsn := (v.extractLsb' 0 24).toNat, epsn := (v.extractLsb' 32 24).toNat }) ∧
    (∃ t, exec (.configRegisterWrite (.qpWord n 4) v) s = .next t ∧ t = { s with qps := t.qps } ∧ t.qp n = { s.qp n with rcq := v }) ∧
    (∃ t, exec (.configRegisterWrite (.qpWord n 5) v) s = .next t ∧ t = { s with qps := t.qps } ∧
      t.qp n = { s.qp n with rcn := (v.setWidth 4).toNat, rbuf := v.extractLsb' 32 32 })) ∧
  (∀ (s : State) (r p : Nat) (v : Word64), r < 8 → p < 9 →
    (∃ t, exec (.configRegisterWrite (.portGencap r p) v) s = .next t ∧ t = { s with routers := t.routers } ∧
      (t.router r).port p = { (s.router r).port p with gencap := v.setWidth 2 }) ∧
    (∃ t, exec (.configRegisterWrite (.portRetry r p) v) s = .next t ∧ t = { s with routers := t.routers } ∧
      (t.router r).port p = { (s.router r).port p with retry := (BitVec.ofNat 32 ((s.router r).port p).retry &&& ~~~(v.setWidth 32)).toNat }) ∧
    (v.getLsbD 0 = true → ((s.router r).port p).gencap ≠ 0 → ((s.router r).port p).st ≠ 2 →
      ∃ t, exec (.configRegisterWrite (.portEnable r p) v) s = .next t ∧ t = { s with routers := t.routers } ∧
        (t.router r).port p = { (s.router r).port p with
          en := true, cap := ((s.router r).port p).gencap, st := 1, gen := 0, since := s.time }))

/-- A host core's read of a word of a register map answers these 8 bytes, the first n of them. -/
def ReadsAs (s : State) (w : MapWord) (v : Word64) : Prop :=
  ∀ die n, die < 2 → exec (.hostAccess ⟨die, .register w, .read n⟩) s = .next { s with hostData := (leBytes 8 v.toNat).take n }

/-- A host core's write of such a word is what another event does. -/
def WritesAs (s : State) (w : MapWord) (v : Word64) (o : Host.Outcome State Fault Refusal) : Prop :=
  ∀ die, die < 2 → exec (.hostAccess ⟨die, .register w, .write (leBytes 8 v.toNat)⟩) s = o

/-- The register maps as host software reads and writes them (R7, R8, R323, R325, R353, R358, R380, R386, R387). Each field reads as
its value where its map places it, RES0 as zero; a write of a word of one field writes that field; the words of RO fields take
no write. -/
def Sys2Proof.Claim.RegisterMaps : Prop :=
  (∀ (s : State) (x : Nat), x < 64 →
    (∃ v, ReadsAs s (.context x 0) v ∧ v.getLsbD 0 = (s.ctx x).valid ∧ v.extractLsb' 1 3 = BitVec.ofNat 3 (s.ctx x).state.code ∧
      v.getLsbD 4 = (s.ctx x).preq ∧ v.getLsbD 5 = (s.ctx x).rreq ∧ v.extractLsb' 6 10 = 0 ∧ v.extractLsb' 16 16 = (s.ctx x).job ∧
      v.extractLsb' 32 4 = (s.ctx x).cos ∧ v.extractLsb' 36 12 = 0 ∧ v.extractLsb' 48 16 = (s.ctx x).clmask) ∧
    ReadsAs s (.context x 1) (s.ctx x).save ∧ ReadsAs s (.context x 2) (s.ctx x).flog ∧ ReadsAs s (.context x 3) (s.ctx x).cmap ∧
    ∀ v, WritesAs s (.context x 1) v (exec (.configRegisterWrite (.ctxSave x) v) { s with hostData := [] }) ∧
      WritesAs s (.context x 2) v (exec (.configRegisterWrite (.ctxFlog x) v) { s with hostData := [] }) ∧
      WritesAs s (.context x 3) v (.next { s with hostData := [] })) ∧
  (∀ (s : State) (n : Nat), n < 64 → ReadsAs s (.queue n 0) (s.queue n).qptr ∧
    (∃ v, ReadsAs s (.queue n 1) v ∧ v.extractLsb' 0 4 = (s.queue n).logn ∧ v.extractLsb' 4 4 = 0 ∧ v.extractLsb' 8 6 = (s.queue n).ctx ∧
      v.getLsbD 14 = false ∧ v.getLsbD 15 = (s.queue n).en ∧ v.extractLsb' 16 48 = 0) ∧
    ∀ v, WritesAs s (.queue n 0) v (exec (.configRegisterWrite (.queueQptr n) v) { s with hostData := [] })) ∧
  (∀ (s : State) (v : Word64), ReadsAs s (.translation 0) s.tseq ∧ ReadsAs s (.translation 1) s.tdone ∧
    WritesAs s (.translation 0) v (exec (.tseqWrite v) { s with hostData := [] }) ∧ WritesAs s (.translation 1) v (.next { s with hostData := [] })) ∧
  (∀ (s : State) (x p : Nat), x < 64 → p < 256 → (s.window x p).win < 2 ^ 32 → (s.window x p).out < 2 ^ 32 →
    (∃ v, ReadsAs s (.window x p 0) v ∧ (v.extractLsb' 0 32).toNat = (s.window x p).win ∧ (v.extractLsb' 32 32).toNat = (s.window x p).out) ∧
    ∀ k v, WritesAs s (.window x p k) v (.next { s with hostData := [] })) ∧
  (∀ (s : State), ReadsAs s .mepoch s.mepoch ∧ ReadsAs s .fto (BitVec.ofNat 64 s.fto) ∧ ReadsAs s .boot (BitVec.ofNat 64 s.bootStatus) ∧
    (∀ x, ReadsAs s (.resume x) (s.resumeWord x)) ∧
    ∀ v, WritesAs s .fto v (exec (.configRegisterWrite .fto v) { s with hostData := [] }) ∧ WritesAs s .boot v (.next { s with hostData := [] }))

/-- Writes of configuration fields, and the register maps through which host software reads and writes them. -/
def Obligations.ConfigurationWrites : Prop := FieldWrites ∧ RegisterMaps

/-- Frequency, power and thermal management (R450–R453, R456). A write of FTGT takes the nearest step within the island's
limits, and FCUR follows at once unless capping or the thermal limit holds it. PCAP stays within 1,500 to 3,000 W. A capping
step with P above PCAP takes every cluster island down one step, not below 1.0 GHz; with P more than 100 W below PCAP it lets
one that the thermal limit does not hold go up one, not past FTGT. Overcurrent takes every cluster island to 2.0 GHz or less
at once. Above 105 °C an island goes down a step and THERM is set; when THERM is cleared an island that is no cluster's is
back at FTGT. -/
def Sys2Proof.Claim.PowerManagement : Prop :=
  (∀ (s : State) (i : Nat) (v : BitVec 7), i < 20 → ∃ t, exec (.ftgtWrite i v) s = .next t ∧ t = { s with islands := t.islands } ∧
    (t.island i).ftgt = (if i < 16 then min (max v.toNat 20) 80 else min (max v.toNat 10) 40) ∧
    ((s.island i).capped = false → (s.island i).therm = false → (t.island i).fcur = (t.island i).ftgt) ∧
    ((s.island i).capped = true ∨ (s.island i).therm = true → (t.island i).fcur = min (s.island i).fcur (t.island i).ftgt) ∧
    ∀ j, j ≠ i → t.island j = s.island j) ∧
  (∀ (s : State) (v : BitVec 12), exec (.pcapWrite v) s = .next { s with pcap := min (max v.toNat 1500) 3000 }) ∧
  (∀ (s : State) (watts : Nat) (sensors : List (Nat × Nat)), ∃ t, exec (.cappingStep watts sensors) s = .next t ∧ t = { s with islands := t.islands } ∧
    (∀ i, i < 16 → (t.island i).ftgt = (s.island i).ftgt ∧ (t.island i).therm = (s.island i).therm ∧
      (s.pcap < watts → 20 < (s.island i).fcur → (s.island i).fcur ≤ (s.island i).ftgt →
        (t.island i).fcur = (s.island i).fcur - 1 ∧ (t.island i).capped = true) ∧
      (watts + 100 < s.pcap → (s.island i).therm = false → (s.island i).fcur < (s.island i).ftgt → (t.island i).fcur = (s.island i).fcur + 1) ∧
      (watts ≤ s.pcap → s.pcap ≤ watts + 100 → (s.island i).fcur ≤ (s.island i).ftgt → (t.island i).fcur = (s.island i).fcur)) ∧
    (∀ i, 16 ≤ i → t.island i = { s.island i with vcur := (t.island i).vcur, pwr := (t.island i).pwr }) ∧
    ∀ i v p, i < 24 → sensors[i]? = some (v, p) → (t.island i).vcur = v % 4096 ∧ (t.island i).pwr = p % 2 ^ 32) ∧
  (∀ (s : State), ∃ t, exec .overcurrent s = .next t ∧ t = { s with islands := t.islands } ∧
    (∀ i, i < 16 → (t.island i).fcur = min (s.island i).fcur 40 ∧ (t.island i).ftgt = (s.island i).ftgt ∧
      (40 < (s.island i).fcur → 40 < (s.island i).ftgt → (t.island i).capped = true)) ∧
    ∀ i, 16 ≤ i → t.island i = s.island i) ∧
  (∀ (s : State) (i m : Nat), i < 24 → 105000 < m → ∃ t, exec (.thermalStep i m) s = .next t ∧ t = { s with islands := t.islands } ∧
    t.island i = { s.island i with
      therm := true, fcur := if (if i < 16 then 20 else 10) < (s.island i).fcur then (s.island i).fcur - 1 else (s.island i).fcur } ∧
    ∀ j, j ≠ i → t.island j = s.island j) ∧
  (∀ (s : State) (i : Nat), i < 24 → (s.island i).therm = true → ∃ t, exec (.thermClear i) s = .next t ∧ t = { s with islands := t.islands } ∧
    t.island i = { s.island i with therm := false, fcur := if i < 16 then (s.island i).fcur else (s.island i).ftgt } ∧
    ∀ j, j ≠ i → t.island j = s.island j)

/-- Boot, measurements and module reset (R448, R449, R453, R455). Released from reset, a module goes through its phases in
order: on success the status word reads 5, the images are measured into slots 0 to 3 and its memory reads zero; a failure in
phase k leaves k − 1 with the failure bit. Slots 4 to 7 alone are extended by MEASUREMENT_EXTEND, with the SHA-384 of the old
value and the digest. A report carries the nonce, the eight slots and a signature. Reset and thermal shutdown keep the memory
that other modules hold, and leave this module in its state after reset. -/
def Obligations.BootAndReset : Prop :=
  (∀ (s : State) (b : BootImages), s.bootStatus = 0 → b.failing = none → ∃ t, exec (.resetRelease b) s = .next t ∧ t.bootStatus = 5 ∧
    (∀ a, memByte t a = if paModule a = s.moduleId.toNat then 0 else memByte s a) ∧
    (∀ d ∈ [(0, b.first), (1, b.second), (2, b.hostFw), (3, b.schedFw)],
      t.slot d.1 = BitVec.ofNat 384 (leNat (sha384 (leBytes 48 (s.slot d.1).toNat ++ leBytes 48 d.2.toNat)))) ∧
    ∀ k, 4 ≤ k → t.slot k = s.slot k) ∧
  (∀ (s : State) (b : BootImages) (k : Nat), s.bootStatus = 0 → b.failing = some k → 1 ≤ k → k ≤ 5 →
    ∃ t, exec (.resetRelease b) s = .next t ∧ t.bootStatus = k - 1 + 256) ∧
  (∀ (s : State) (k : Nat) (d : BitVec 384), 4 ≤ k → k < 8 → ∃ t, exec (.measurementExtend k d) s = .next t ∧ t = { s with slots := t.slots } ∧
    t.slot k = BitVec.ofNat 384 (leNat (sha384 (leBytes 48 (s.slot k).toNat ++ leBytes 48 d.toNat))) ∧ ∀ j, j ≠ k → t.slot j = s.slot j) ∧
  (∀ (s : State) (k : Nat) (d : BitVec 384), k < 4 → exec (.measurementExtend k d) s = .next s) ∧
  (∀ (s : State) (n : BitVec 256), exec (.spdmGetMeasurements n) s = .next { s with
    reports := ⟨n, (List.range 8).map s.slot, Config.deviceSign n ((List.range 8).map s.slot)⟩ :: s.reports }) ∧
  (∀ (s : State) (i : Instr), i ∈ [Instr.moduleReset, .thermalShutdown] → ∃ t, exec i s = .next t ∧
    t = { State.reset with
      agenda := s.agenda, inputs := s.inputs, freeCtr := s.freeCtr, mem := s.mem, failed := s.failed, l2 := t.l2, dir := t.dir
      mirrorDir := t.mirrorDir } ∧
    (∀ e ∈ t.l2, e ∈ s.l2 ∧ e.1 / 2 ^ 49 / 8 ≠ s.moduleId.toNat) ∧ (∀ e ∈ s.l2, e.1 / 2 ^ 49 / 8 ≠ s.moduleId.toNat → e ∈ t.l2) ∧
    ∀ e ∈ s.dir, paModule (e.1 * 128) ≠ s.moduleId.toNat → e ∈ t.dir)

/-- What the module gives and takes outside its fabric (R409, R410): a frame that is not RoCEv2, of 9,216 bytes at most, goes
to the host cores; an Ethernet port runs at a rate it supports or is down; a host port trains to an option it supports. -/
def Sys2Proof.Claim.OutsideLinks : Prop :=
  (∀ (s : State) (p : Nat) (b : List Byte), p < 8 → b.length ≤ 9216 → exec (.frameToHost p b) s = .next { s with hostFrames := (p, b) :: s.hostFrames }) ∧
  (∀ (s : State) (p r : Nat), p < 8 → ∃ t, exec (.ethernetLinkTraining p r) s = .next t ∧ t = { s with ethernet := t.ethernet } ∧
    ∀ q, tabGet 0 t.ethernet q = if q = p then (if r = 1600 ∨ r = 800 ∨ r = 400 then r else 0) else tabGet 0 s.ethernet q) ∧
  (∀ (s : State) (p : Nat) (l : HostLink), p < 2 → ∃ t, exec (.hostPortTraining p l) s = .next t ∧ t = { s with hostLinks := t.hostLinks } ∧
    tabFind t.hostLinks p = (if (l.gen = 5 ∨ l.gen = 6 ∨ l.gen = 7) ∧ (l.width = 16 ∨ l.width = 8 ∨ l.width = 4) ∧
      (l.cxl = 32 ∨ l.cxl = 20 ∨ l.cxl = 0) then some l else none) ∧
    ∀ q, q ≠ p → tabFind t.hostLinks q = tabFind s.hostLinks q)

/-- Power management, and what leaves the module outside its fabric. -/
def Obligations.PowerAndLinks : Prop := PowerManagement ∧ OutsideLinks

/-! ### Translation, resume words, migration (R349–R359) -/

/-- Walks and the translation fence. A walk of a die's walker leaves the state that translating the pointer leaves (R350,
R352). A write of TSEQ takes effect at once; TDONE follows when nothing that was translated before it is outstanding (R353).
A retry at a table word wakes every record parked with the reason translation that waits for it, and frees what engines hold
at it (R356). -/
def Sys2Proof.Claim.TranslationEvents : Prop :=
  (∀ (s s0 s1 : State) (die x : Nat) (p : Word64) (w : DescWord) (d : Desc) (t : Xlat), die < 4 → x < 64 → p.getLsbD 63 = false →
    s.lookupDesc (128 * die) x (ptrObj p) = (some w, s0) → decodeDesc w (p.getLsbD 62) = some d →
    s.translate (128 * die) x (ptrObj p) d (ptrOff p) = .ok (t, s1) → exec (.translationWalk die x p) s = .next s1) ∧
  (∀ (s : State) (v : Word64), exec (.tseqWrite v) s = .next { s with tseq := v, tseqMark := (s.nextTag, s.time) }) ∧
  (∀ s : State, (∀ r ∈ s.lower, s.tseqMark.1 ≤ r.1) → (∀ r ∈ s.upper, r.1 < s.tseqMark.1 → r.2.answer.isSome = true) →
    (∀ c ∈ s.cores, ∀ x ∈ c.2.copies, (∀ f ∈ x.2.flying, s.tseqMark.1 ≤ f.seq) ∧
      (isDrain x.2.instr = true → x.2.waitDrain = true ∨ x.2.todo = [] ∨ s.tseqMark.2 < x.2.time)) →
    exec .tdoneUpdate s = .next { s with tdone := s.tseq }) ∧
  (∀ (s : State) (pa : Nat), (∀ q ∈ s.qps, ∀ r ∈ q.2.pending, ∀ h ∈ r.hold, pa ∉ h.stops) →
    ∃ t, exec (.translationRetry pa) s = .next t ∧ t = { s with agenda := t.agenda, cores := t.cores } ∧
      (∀ core slot i g, s.group core slot = some g → (g.prec i).state = .parked → (g.prec i).reason = 11 →
        BitVec.ofNat 64 pa ∈ (g.prec i).waitPtrs → ∃ g', t.group core slot = some g' ∧ g'.prec i = { g.prec i with woken := true } ∧
          ((g.prec i).woken = false → .parkWake core slot i ∈ t.agenda)) ∧
      (∀ core slot i g, s.group core slot = some g → tabSorted (s.core core).groups = true → tabSorted g.recs = true →
        ((g.prec i).state ≠ .parked ∨ (g.prec i).reason ≠ 11 ∨
        BitVec.ofNat 64 pa ∉ (g.prec i).waitPtrs) → ∃ g', t.group core slot = some g' ∧ g'.prec i = g.prec i) ∧
      ∀ core j c h, tabFind (s.core core).copies j = some c → c.hold = some h →
        tabFind (t.core core).copies j = some (if pa ∈ h.stops then { c with hold := none } else c))

/-- The state in which a resume word's GO has been cleared. -/
def goCleared (s : State) (x : Nat) : State :=
  { s with resume := tabSet 0 s.resume x (tabGet 0 s.resume x &&& 0x7FFFFFFFFFFFFFFF) }

/-- A resume word with GO set, of a context that is on its cores, asks for an action on a record or on an engine slot. -/
def Asks (s : State) (x act : Nat) (engine : Bool) : Prop :=
  x < 64 ∧ (s.ctx x).away = false ∧ (s.resumeWord x).getLsbD 63 = true ∧ (s.resumeWord x).getLsbD 10 = engine ∧
    (s.resumeWord x).extractLsb' 8 2 = BitVec.ofNat 2 act

/-- The record that it names is parked with reason 6 or 11. -/
def Names (s : State) (x core slot i : Nat) (g : Group) : Prop :=
  core = physCore (s.ctx x).cmap ((s.resumeWord x).extractLsb' 24 9).toNat ∧ slot = ((s.resumeWord x).extractLsb' 0 6).toNat ∧
    i = ((s.resumeWord x).extractLsb' 6 2).toNat ∧ s.group core slot = some g ∧ g.ctx = x ∧ (g.prec i).state = .parked ∧
    ((g.prec i).reason = 6 ∨ (g.prec i).reason = 11)

/-- Resume words (R356). GO is cleared in each case. ACT 1 wakes the record, which reissues its word; ACT 0 does nothing. ACT
2 delivers the trapping fault on which it parked, without a new record: where its path has a trap block, it runs there with
its place as the trap return. ACT 3 ends its lanes. On a held engine slot ACT 1 makes it try its line again; ACT 2 and ACT 3
end it with error status, here a copy of which other operations are still awaited. -/
def Obligations.ResumeWords : Prop :=
  (∀ (s : State) (x core slot i : Nat) (g : Group), Names s x core slot i g →
    (Asks s x 1 false → (g.prec i).woken = false → ∃ t g', exec (.resumeReissue x) s = .next t ∧
      OnlyCore (goCleared s x) t core slot (s.core core) g' [.parkWake core slot i] ∧ g'.prec i = { g.prec i with woken := true } ∧
      (∀ j, j ≠ i → g'.prec j = g.prec j) ∧ g' = { g with recs := g'.recs }) ∧
    (Asks s x 0 false → exec (.resumeReissue x) s = .next (goCleared s x)) ∧
    (Asks s x 2 false → (g.prec i).cls ≠ 18 → (s.core core).heldAccess slot i = none → s.trapBlock g.launch ≠ 0 → (g.prec i).trap = none →
      i < 2 → ∃ t g', exec (.resumeDeliverTrap x) s = .next t ∧ OnlyGroup (goCleared s x) t core slot g' ∧
        g'.prec i = { g.prec i with
          state := .running
          place := ⟨s.trapBlock g.launch, s.trapBlock g.launch, 0, [], 0, [], false⟩
          trap := some (g.prec i).place, reason := 0, obj := 0, answer := none, arrive := none, drained := none, waitPtrs := []
          woken := false, ready := max (s.clockOf core + 10) (g.prec i).ready } ∧
        (∀ j, j ≠ i → g'.prec j = (g.prec j).stopAtHeader) ∧ g' = { g with recs := g'.recs }) ∧
    (Asks s x 3 false → (s.core core).heldAccess slot i = none → (∃ k, k ≠ i ∧ k < 4 ∧ (g.prec k).lanes ≠ 0) →
      ∃ t g' es, exec (.resumeEndLanes x) s = .next t ∧ OnlyCore (goCleared s x) t core slot (s.core core) g' es ∧
        g'.prec i = PathRec.free ∧ (∀ j, j ≠ i → g'.prec j = (g.prec j).stopAtHeader) ∧ g'.ended = g.ended ∧ SameRegs g g')) ∧
  (∀ (s : State) (x core n : Nat) (c : Copy) (h : Hold), core = physCore (s.ctx x).cmap ((s.resumeWord x).extractLsb' 24 9).toNat →
    n = ((s.resumeWord x).extractLsb' 16 8).toNat → n < 128 → tabFind (s.core core).copies n = some c → c.ctx = x → c.hold = some h →
    (Asks s x 1 true → ∃ t, exec (.resumeEngineRetry x) s = .next t ∧ CoreIs (goCleared s x) t core
      { s.core core with copies := tabMod (s.core core).copies n (fun c => { c with hold := none }) } s.agenda) ∧
    (Asks s x 2 true ∨ Asks s x 3 true → (∃ f ∈ c.flying, f.tags ≠ []) →
      ∃ t, exec (.resumeEngineEnd x) s = .next t ∧ CoreIs (goCleared s x) t core
        { s.core core with copies := tabMod (s.core core).copies n (fun c =>
          { c with
            hold := none, todo := [], waitDrain := false, flying := c.flying.filter (fun f => !f.tags.isEmpty || !f.held)
            error := some (c.error.getD (6, h.ptr)) }) } s.agenda))

/-- Moves (R358, R359). EN starts an entry of PTR 0, with DONE set where it has no lines; each line is copied whole at the
controllers, PTR passes it, and DONE is set at the last; EN cleared stops it. With a line its marks travel (R173, R297): its
directory entry, and what each agent holds of it, stand under the destination line. A move enabled over
the lines of a snapshot keeps PTR at 0 until the snapshot's entry clears EN (R439). s1 is the state after any snapshot of the
destination line has taken its early copy. -/
def Sys2Proof.Claim.MigrationMoves : Prop :=
  (∀ (s : State) (c e : Nat), c < 36 → e < 8 → (s.mig c e).en = false → ∃ t, exec (.migrationEnable c e) s = .next t ∧
    t = { s with migs := t.migs } ∧ t.mig c e = { s.mig c e with en := true, ptr := 0, done := (s.mig c e).lines == 0, early := [], owner := none } ∧
    ∀ c' e', e' < 8 → ¬(c' = c ∧ e' = e) → t.mig c' e' = s.mig c' e') ∧
  (∀ (s s1 : State) (c e src dst : Nat), c < 36 → e < 8 → (s.mig c e).en = true → (s.mig c e).mode = false → (s.mig c e).ptr < (s.mig c e).lines →
    s.isLive (paModule (s.mig c e).dst) = true → s.moveWaits (s.mig c e) = false → dst = s.forward ((s.mig c e).dst / 128 + (s.mig c e).ptr) → s.snapBefore dst = s1 →
    s1.mig c e = s.mig c e →
    src = (s.mig c e).src / 128 + (s.mig c e).ptr →
    ∃ t, exec (.moveLineCopy c e) s = .next t ∧ t = { s1 with
        mem := t.mem, failed := t.failed, migs := t.migs, dir := t.dir, mirrorDir := t.mirrorDir, l2 := t.l2, xlats := t.xlats
        upper := t.upper, qps := t.qps, cores := t.cores } ∧
      (∀ a, memByte t a = if dst * 128 ≤ a ∧ a < dst * 128 + 128 then memByte s1 (src * 128 + (a - dst * 128)) else memByte s1 a) ∧
      (dst ∈ t.failed ↔ src ∈ s1.failed) ∧
      (src ≠ dst → tabSorted s1.dir = true →
        t.dirOf dst = { s1.dirOf src with mirror := (s1.dirOf src).mirror.map (movedLine src dst) } ∧ t.dirOf src = DirEntry.idle ∧
        ∀ k, k ≠ src → k ≠ dst → t.dirOf k = { s1.dirOf k with mirror := (s1.dirOf k).mirror.map (movedLine src dst) }) ∧
      (src ≠ dst → src < 2 ^ 49 → dst < 2 ^ 49 → tabSorted s1.l2 = true → ∀ a, t.agentLine a dst = s1.agentLine a src ∧
        t.agentLine a src = none ∧ ∀ k, k < 2 ^ 49 → k ≠ src → k ≠ dst → t.agentLine a k = s1.agentLine a k) ∧
      t.mig c e = { s.mig c e with ptr := (s.mig c e).ptr + 1, done := (s.mig c e).ptr + 1 == (s.mig c e).lines } ∧
      ∀ c' e', e' < 8 → ¬(c' = c ∧ e' = e) → t.mig c' e' = s1.mig c' e') ∧
  (∀ (s : State) (c e : Nat), s.moveWaits (s.mig c e) = true → exec (.moveLineCopy c e) s = .next s) ∧
  (∀ (s : State) (c e : Nat), c < 36 → e < 8 → (s.mig c e).owner = none → ∃ t, exec (.migrationDisable c e) s = .next t ∧
    t = { s with migs := t.migs } ∧ t.mig c e = { s.mig c e with en := false } ∧ ∀ c' e', e' < 8 → ¬(c' = c ∧ e' = e) → t.mig c' e' = s.mig c' e')

/-- Walks, the translation fence and moves of memory. -/
def Obligations.TranslationAndMoves : Prop := TranslationEvents ∧ MigrationMoves

/-! ### Control-space coherence and host accesses (R23, R281, R364–R374, R409) -/

/-- t is s but for one line, and for packets on their way to other modules: agents' lines and directory entries of other lines are
unchanged, and no byte of memory. -/
def OnlyLine (s t : State) (l : Nat) : Prop :=
  t = { s with
    l2 := t.l2, l2Use := t.l2Use, dir := t.dir, mirrorDir := t.mirrorDir, routers := t.routers, outbox := t.outbox
    nextTag := t.nextTag } ∧ (∀ k, k ≠ l → t.dirOf k = s.dirOf k) ∧
    ∀ a k, k < 2 ^ 49 → k ≠ l → t.agentLine a k = s.agentLine a k

/-- An agent holds a line in a state with these bytes. -/
def HoldsLine (s : State) (a l : Nat) (st : Moesi) (d : Line) : Prop := ∃ x, s.agentLine a l = some x ∧ x.state = st ∧ x.data = d

/-- A line that a home can serve, where a request for it is served, an agent of the domain, no core holding the line, no contended
flag. -/
def Served (s : State) (r : LineRef) (h : HomeRef) (a : Nat) : Prop :=
  lineOk r = true ∧ s.homeRef r = h ∧ s.isAgent a = true ∧ (s.dirOf h.line).held = none ∧ (s.dirOf h.line).contended = false

/-- A read forward served: what the owner keeps, what the reader receives, and the entry (R365, R367). -/
def ReadForwarded (s t : State) (h : HomeRef) (o a : Nat) (x : AgentLine) : Prop :=
  OnlyLine s t h.line ∧ HoldsLine t a h.line .s x.data ∧ (∀ b, b ≠ a → b ≠ o → t.agentLine b h.line = s.agentLine b h.line) ∧
    (x.state = .e → t.agentLine o h.line = some { x with state := .s } ∧ (t.dirOf h.line).state = .s ∧
      ∀ b, b ∈ (t.dirOf h.line).sharers ↔ b = a ∨ b = o) ∧
    (x.state ≠ .e → t.agentLine o h.line = some { x with state := .o } ∧ (t.dirOf h.line).state = .o ∧ (t.dirOf h.line).owner = o ∧
      ∀ b, b ∈ (t.dirOf h.line).sharers ↔ b = a ∨ ((s.dirOf h.line).state = .o ∧ b ∈ (s.dirOf h.line).sharers))

/-- A read request of an agent in I (R367). With the entry in I the home's bytes go to it in E and it is the owner; in S it
joins the sharers; in X or O the owner sends its bytes and they share; in P the line is gathered first. READ_FORWARD is the
owner's part of that. -/
def Sys2Proof.Claim.HomeReads : Prop :=
  (∀ (s : State) (r : LineRef) (h : HomeRef) (a : Nat) (acq : Bool), Served s r h a → s.agentLine a h.line = none →
    (∀ d, (s.dirOf h.line).state = .i → s.homeRead h = .ok d → ∃ t, exec (.homeReadRequest r a acq) s = .next t ∧ OnlyLine s t h.line ∧
      HoldsLine t a h.line .e d ∧ (∀ b, b ≠ a → t.agentLine b h.line = s.agentLine b h.line) ∧ t.dirOf h.line = { s.dirOf h.line with
        state := .x, owner := a, sharers := [], masks := [], mirror := s.slotOf h }) ∧
    (∀ d, (s.dirOf h.line).state = .s → s.homeRead h = .ok d → ∃ t, exec (.homeReadRequest r a acq) s = .next t ∧ OnlyLine s t h.line ∧
      HoldsLine t a h.line .s d ∧ (∀ b, b ≠ a → t.agentLine b h.line = s.agentLine b h.line) ∧ (t.dirOf h.line).state = .s ∧
      ∀ b, b ∈ (t.dirOf h.line).sharers ↔ b = a ∨ b ∈ (s.dirOf h.line).sharers) ∧
    (∀ o x, ((s.dirOf h.line).state = .x ∧ (x.state = .m ∨ x.state = .e) ∨ (s.dirOf h.line).state = .o ∧ x.state = .o) →
      (s.dirOf h.line).owner = o → o ≠ a → s.agentLine o h.line = some x →
      ∀ i ∈ [Instr.homeReadRequest r a acq, .readForward r o a], ∃ t, exec i s = .next t ∧ ReadForwarded s t h o a x) ∧
    (∀ s1 d, (s.dirOf h.line).state = .p → s.gather h = .ok s1 → s1.homeRead h = .ok d → ∃ t, exec (.homeReadRequest r a acq) s = .next t ∧
      HoldsLine t a h.line .e d ∧ (t.dirOf h.line).state = .x ∧ (t.dirOf h.line).owner = a ∧ (t.dirOf h.line).masks = [] ∧
      ∀ k, memByte t k = memByte s1 k)) ∧
  (∀ (s s1 : State) (r : LineRef) (h : HomeRef), lineOk r = true → s.homeRef r = h → (s.dirOf h.line).state = .p → s.gather h = .ok s1 →
    exec (.gather r) s = .next s1 ∧ (s1.dirOf h.line).state = .i ∧ (s1.dirOf h.line).masks = [] ∧
    ∀ e ∈ (s.dirOf h.line).masks, s1.agentLine e.1 h.line = none)

/-- Ownership, with the write that asked for it (R365, R367–R369). The requester, having room and a class that may fill, ends in M with the bytes that
it was given and its own written over those of the mask. From I it takes the home's bytes; from S the sharers are in I; from
X the owner, whose bytes it takes, is in I, and a transfer is counted for a plain line. On a contended plain line the owner
is converted: both hold it as Pw, each with its own mask, and the entry is P. A holder's mask in P grows by what it writes
where no other holder's mask has it. -/
def Sys2Proof.Claim.HomeOwnership : Prop :=
  (∀ (s : State) (r : LineRef) (h : HomeRef) (a : Nat) (whole : Bool) (m : ByteMask) (d : Line), Served s r h a → s.agentLine a h.line = none →
    s.l2MakeRoom a h.line (s.agentCos a) = .ok s → s.classWays a (s.agentCos a) ≠ [] →
    (∀ b, ((s.dirOf h.line).state = .i ∨ (s.dirOf h.line).state = .s) → s.homeRead h = .ok b →
      (∀ k, k ∈ (s.dirOf h.line).sharers → k ≠ a → (s.agentLine k h.line).map AgentLine.state = some .s) →
      ∃ t, exec (.homeOwnershipRequest r a whole m d) s = .next t ∧ HoldsLine t a h.line .m (mergeLine b d m) ∧
        (t.dirOf h.line).state = .x ∧ (t.dirOf h.line).owner = a ∧ (t.dirOf h.line).sharers = [] ∧
        ((s.dirOf h.line).state = .s → ∀ b, b ∈ (s.dirOf h.line).sharers → b ≠ a → t.agentLine b h.line = none) ∧
        (∀ b k, k < 2 ^ 49 → k ≠ h.line → t.agentLine b k = s.agentLine b k) ∧ ∀ k, memByte t k = memByte s k) ∧
    (∀ o x, (s.dirOf h.line).state = .x → (s.dirOf h.line).owner = o → o ≠ a → s.agentLine o h.line = some x → x.state = .m ∨ x.state = .e →
      ∃ t, exec (.homeOwnershipRequest r a whole m d) s = .next t ∧ HoldsLine t a h.line .m (mergeLine x.data d m) ∧
        t.agentLine o h.line = none ∧ (t.dirOf h.line).state = .x ∧ (t.dirOf h.line).owner = a ∧
        ((s.dirOf h.line).sync = false → (t.dirOf h.line).transfers = s.time :: (s.dirOf h.line).transfers.filter (fun k => s.time - k < 4096)) ∧
        ∀ k, memByte t k = memByte s k) ∧
    (∀ o x, (s.dirOf h.line).state = .x → (s.dirOf h.line).owner = o → o ≠ a → s.agentLine o h.line = some x → x.state = .m ∨ x.state = .e →
      ∃ t, exec (.ownershipForward r o a) s = .next t ∧ HoldsLine t a h.line (if x.state = .e then .e else .m) x.data ∧
        t.agentLine o h.line = none ∧ (t.dirOf h.line).state = .x ∧ (t.dirOf h.line).owner = a ∧ ∀ k, memByte t k = memByte s k)) ∧
  (∀ (s : State) (r : LineRef) (h : HomeRef) (a o : Nat) (m : ByteMask) (d : Line) (x : AgentLine), lineOk r = true → s.homeRef r = h → s.isAgent a = true →
    (s.dirOf h.line).held = none → s.agentLine a h.line = none → s.l2MakeRoom a h.line (s.agentCos a) = .ok s →
    s.classWays a (s.agentCos a) ≠ [] → (s.dirOf h.line).contended = true →
    s.time - (s.dirOf h.line).lastMove ≤ 4096 → (s.dirOf h.line).sync = false → (s.dirOf h.line).state = .x → (s.dirOf h.line).owner = o → o ≠ a →
    s.agentLine o h.line = some x → x.state = .m → x.mask &&& m = 0 → s.homeLine h = .ok h.line →
    ∃ t y, exec (.homeOwnershipRequest r a false m d) s = .next t ∧ t.agentLine o h.line = some { x with state := .pw } ∧
      t.agentLine a h.line = some y ∧ y.state = .pw ∧ y.mask = m ∧ (∀ i, i < 128 → m.getLsbD i = true → lineByte y.data i = lineByte d i) ∧
      (t.dirOf h.line).state = .p ∧ tabGet 0 (t.dirOf h.line).masks a = m ∧ tabGet 0 (t.dirOf h.line).masks o = x.mask) ∧
  (∀ (s : State) (r : LineRef) (h : HomeRef) (a : Nat) (m : ByteMask) (d : Line) (x : AgentLine), lineOk r = true → s.homeRef r = h → s.isAgent a = true →
    (s.dirOf h.line).held = none → s.agentLine a h.line = some x → x.state = .pw → (s.dirOf h.line).state = .p → (s.dirOf h.line).sync = false →
    tabFind (s.dirOf h.line).masks a = some x.mask → m &&& ~~~x.mask ≠ 0 →
    (∀ e ∈ (s.dirOf h.line).masks, e.1 ≠ a → e.2 &&& m = 0) →
    ∃ t y, exec (.homeMaskRequest r a m d) s = .next t ∧ t.agentLine a h.line = some y ∧ y.state = .pw ∧ y.mask = x.mask ||| m ∧
      y.data = mergeLine x.data d m ∧ (t.dirOf h.line).state = .p ∧ tabGet 0 (t.dirOf h.line).masks a = x.mask ||| m ∧
      (∀ b, b ≠ a → tabFind (t.dirOf h.line).masks b = tabFind (s.dirOf h.line).masks b) ∧ ∀ k, memByte t k = memByte s k)

/-- What leaves an agent, and the home's own events (R365, R367–R369, R372, R374). A write-back gives the home all the bytes
and leaves the agent in I; of an O line the sharers stay. A sharer that evicts or is invalidated is in I, and the entry no
longer names it. CONVERT writes the owner's line back and leaves it Pw with its dirty mask. RECALL promotes a line held by an
agent's core. The slot of the mirror home takes the primary's
bytes and entry. The contended flag goes when 4,096 cycles have passed with no
transfer and no Pw grant. -/
def Sys2Proof.Claim.HomeEvents : Prop :=
  (∀ (s s1 : State) (r : LineRef) (h : HomeRef) (a : Nat) (x : AgentLine), lineOk r = true → s.homeRef r = h → (s.dirOf h.line).held = none → s.agentLine a h.line = some x →
    x.state = .m ∨ x.state = .e ∨ x.state = .o → s.homeWrite h x.data (BitVec.allOnes 128) = .ok s1 →
    ∃ t, exec (.homeWriteBack r a) s = .next t ∧ t.agentLine a h.line = none ∧ (∀ k, memByte t k = memByte s1 k) ∧
      ((s.dirOf h.line).state ≠ .o → t.dirOf h.line = { s.dirOf h.line with state := .i, owner := 0 }) ∧
      ((s.dirOf h.line).state = .o → t.dirOf h.line = { s.dirOf h.line with state := .s, owner := 0 })) ∧
  (∀ (s : State) (r : LineRef) (h : HomeRef) (a : Nat) (x : AgentLine), lineOk r = true → s.homeRef r = h → s.agentLine a h.line = some x → x.state = .s →
    ∀ i ∈ [Instr.sharerEvictNotice r a, .invalidate r a], ∃ t, exec i s = .next t ∧ t.agentLine a h.line = none ∧
      (∀ b, b ≠ a → t.agentLine b h.line = s.agentLine b h.line) ∧ (∀ k, memByte t k = memByte s k) ∧
      (t.dirOf h.line).sharers = (s.dirOf h.line).sharers.filter (· != a) ∧
      ((s.dirOf h.line).state = .s → (t.dirOf h.line).sharers = [] → (t.dirOf h.line).state = .i) ∧
      ((t.dirOf h.line).sharers ≠ [] → (t.dirOf h.line).state = (s.dirOf h.line).state)) ∧
  (∀ (s : State) (r : LineRef) (h : HomeRef) (a : Nat) (x : AgentLine), lineOk r = true → s.homeRef r = h → (s.dirOf h.line).sync = false → (s.dirOf h.line).owner = a →
    ((s.dirOf h.line).state = .x ∧ (x.state = .m ∨ x.state = .e)) → s.agentLine a h.line = some x → s.homeLine h = .ok h.line →
    ∃ t, exec (.convert r a) s = .next t ∧ t.agentLine a h.line = some { x with state := .pw, mask := if x.state = .e then 0 else x.mask } ∧
      (t.dirOf h.line).state = .p ∧ (t.dirOf h.line).masks = [(a, if x.state = .e then 0 else x.mask)] ∧ (t.dirOf h.line).sharers = []) ∧
  (∀ (s : State) (r : LineRef) (h : HomeRef) (a : Nat) (k : Held), lineOk r = true → s.homeRef r = h → (s.dirOf h.line).held = some k → k.module * 8 + coreDie k.core = a →
    exec (.recall r a) s = .next (s.promoteLine h.line)) ∧
  (∀ (s s1 : State) (r : LineRef) (h : HomeRef) (m : Nat) (d : Line), lineOk r = true → s.homeRef r = h → h.slot = some m →
    inPrimary (h.line * 128) = true → s.isLive (paModule (h.line * 128)) = true → s.isLive (paModule (m * 128)) = true →
    s.ctlRead h.line = .ok d → s.ctlWrite m d (BitVec.allOnes 128) = .ok s1 → ∃ t, exec (.mirrorUpdate r) s = .next t ∧
      t = { s1 with dir := t.dir, mirrorDir := t.mirrorDir, routers := t.routers, outbox := t.outbox, nextTag := t.nextTag } ∧
      t.dirOf h.line = { s.dirOf h.line with mirror := some m } ∧ (∀ k, k ≠ h.line → t.dirOf k = s.dirOf k) ∧
      tabGet DirEntry.idle t.mirrorDir m = { s.dirOf h.line with mirror := some m } ∧
      ∀ k, k ≠ m → tabGet DirEntry.idle t.mirrorDir k = tabGet DirEntry.idle s.mirrorDir k) ∧
  (∀ (s : State) (r : LineRef) (h : HomeRef), lineOk r = true → s.homeRef r = h → ∃ t, exec (.contentionExpiry r) s = .next t ∧
    t = { s with dir := t.dir, mirrorDir := t.mirrorDir, routers := t.routers, outbox := t.outbox, nextTag := t.nextTag } ∧ (∀ k, k ≠ h.line → t.dirOf k = s.dirOf k) ∧
    ((s.dirOf h.line).contended = true → 4096 ≤ s.time - (s.dirOf h.line).lastMove →
      t.dirOf h.line = { s.dirOf h.line with contended := false, transfers := [] }) ∧
    (s.time - (s.dirOf h.line).lastMove < 4096 → t.dirOf h.line = s.dirOf h.line))

/-- Requests and answers on the upper deck (R377, R381, R383, R385, R386). A packet to a home on another live module enters the
router of its line's span with the header of R381: DEST, SRC, deck and channel, HOPS 63, the line's address, its tag and byte mask;
the next request has the next tag. A request delivered here is served
as the home's own event and answered on the response channel of its router. An answer to a load's or an atomic's request, of a
line that the home gives no bytes of, ends the wait: the access goes on. What the payload carries is the model's choice (log 186). -/
def Sys2Proof.Claim.UpperDeck : Prop :=
  (∀ (s : State) (peer c op job x line : Nat) (mask : ByteMask) (bs : List Byte), peer < 256 → peer ≠ s.moduleId.toNat →
    s.live.getLsbD peer = true → 3 ≤ c → c < 6 → bs.length < 512 →
    ∃ k : Packet, k.payload = bs ∧ k.field 0 8 = peer ∧ k.field 8 8 = s.moduleId.toNat ∧ k.field 16 1 = 1 ∧ k.field 17 2 = c - 3 ∧
      k.field 19 6 = 63 ∧ k.field 25 9 = bs.length ∧ k.field 64 56 = line * 128 % 2 ^ 56 ∧ k.field 128 32 = s.nextTag % 2 ^ 32 ∧
      k.header.extractLsb' 256 128 = mask ∧
      (let r := s.spanRouter (spanOf (line * 128))
       let t := s.post peer c op job x line mask bs
       t.nextTag = s.nextTag + 1 ∧
       (s.injectRoom r c k = true → t = { s with routers := t.routers, nextTag := t.nextTag } ∧
         (t.router r).input 9 c = (s.router r).input 9 c ++ [k] ∧ ∀ q, q ≠ r → t.router q = s.router q) ∧
       (s.injectRoom r c k = false → t = { s with outbox := s.outbox ++ [(r, c, k)], nextTag := t.nextTag }))) ∧
  (∀ (s : State) (peer c op job x line : Nat) (mask : ByteMask) (bs : List Byte), peer = s.moduleId.toNat ∨ s.live.getLsbD peer = false →
    s.post peer c op job x line mask bs = s) ∧
  (∀ (s t : State) (rt : Nat) (p : Packet), p.field 16 1 = 1 →
    (p.does = some 7 → exec (.homeReadRequest p.lineRef p.agent p.flag) s = .next t →
      s.deliverPacket rt p = t.answerPacket rt p 35 (t.servedLine p)) ∧
    (p.does = some 8 → exec (.homeOwnershipRequest p.lineRef p.agent p.flag p.mask p.lineData) s = .next t →
      s.deliverPacket rt p = t.answerPacket rt p 35 (t.servedLine p)) ∧
    (p.does = some 14 → exec (.invalidate p.lineRef p.agent) s = .next t → s.deliverPacket rt p = t.answerPacket rt p 35 [])) ∧
  (∀ (s : State) (rt : Nat) (p : Packet) (e : UpperReq), p.field 16 1 = 1 → p.does = some 35 → p.payload = [] →
    tabFind s.upper p.tagOf = some e → s.deliverPacket rt p = { s with
      upper := tabPut s.upper p.tagOf { e with answer := some none }, agenda := s.agenda ++ [.longLatencyResult e.core e.acc] }) ∧
  (∀ (s : State) (rt : Nat) (p : Packet), p.field 16 1 = 1 → p.does = some 35 → tabFind s.upper p.tagOf = none → s.deliverPacket rt p = s)

/-- The homes of control space: reads, ownership, what leaves an agent, and the packets between homes and agents. -/
def Obligations.Homes : Prop := HomeReads ∧ HomeOwnership ∧ HomeEvents ∧ UpperDeck

/-- A host access within one line (R23, R373, R409). A write of tensor space changes the bytes it names and no others; an
atomic leaves there what its operation makes of the old value and the operand, and is answered with the old value; a read is
answered with the bytes and changes nothing else. In control space the
access is performed by the host agent: a held line is promoted first. A store to VALUE of a sync line sets every SHEAF bit
and adds 1 to EPOCH (R373). -/
def Obligations.HostAccesses : Prop :=
  (∀ (s : State) (die pa : Nat) (bs : List Byte), die < 2 → bs ≠ [] → pa % 128 + bs.length ≤ 128 → paPresent pa = true →
    s.isLive (paModule pa) = true → s.migs = [] → pa / 128 ∉ s.failed →
    ∃ t, exec (.hostAccess ⟨die, .tensor pa, .write bs⟩) s = .next t ∧ t = { s with mem := t.mem, failed := t.failed, hostData := [] } ∧
      ∀ a, memByte t a = if pa ≤ a ∧ a < pa + bs.length then bs.getD (a - pa) 0 else memByte s a) ∧
  (∀ (s : State) (die pa op w : Nat) (v c : Word64), die < 2 → op ≤ 12 → op ≠ 1 → w = 4 ∨ w = 8 → pa % 128 + w ≤ 128 → paPresent pa = true →
    s.isLive (paModule pa) = true → s.migs = [] → pa / 128 ∉ s.failed →
    ∃ t, exec (.hostAccess ⟨die, .tensor pa, .atomic op w v c⟩) s = .next t ∧ t = { s with mem := t.mem, failed := t.failed, hostData := tabGetList 0 s.mem pa w } ∧
      (let new := leBytes w (atomicNew op (8 * w) (leNat (tabGetList 0 s.mem pa w)) (v.setWidth 128))
       ∀ a, memByte t a = if pa ≤ a ∧ a < pa + w then new.getD (a - pa) 0 else memByte s a)) ∧
  (∀ (s : State) (die pa n : Nat), die < 2 → (∃ bs, exec (.hostAccess ⟨die, .tensor pa, .read n⟩) s = .next { s with hostData := bs }) ∧
    (0 < n → pa % 128 + n ≤ 128 → paPresent pa = true → s.isLive (paModule pa) = true → s.migs = [] → pa / 128 ∉ s.failed →
      exec (.hostAccess ⟨die, .tensor pa, .read n⟩) s = .next { s with hostData := tabGetList 0 s.mem pa n })) ∧
  (∀ (s t : State) (die pa mirror : Nat) (bs : List Byte), die < 2 → bs ≠ [] → pa % 128 + bs.length ≤ 128 → paPresent pa = true →
    ({ s with hostData := [] } : State).hostStore (s.moduleId.toNat * 8 + (4 + die)) ⟨pa / 128, mirror⟩ (pa % 128) bs = .ok t →
    exec (.hostAccess ⟨die, .physical pa mirror, .write bs⟩) s = .next t) ∧
  (∀ (s t : State) (die pa mirror n : Nat) (d : Line), die < 2 → 0 < n → pa % 128 + n ≤ 128 → paPresent pa = true →
    ({ s with hostData := [] } : State).hostRead (s.moduleId.toNat * 8 + (4 + die)) ⟨pa / 128, mirror⟩ (byteMask (pa % 128) n) = .ok (d, t) →
    exec (.hostAccess ⟨die, .physical pa mirror, .read n⟩) s = .next { t with hostData := t.hostData ++ lineBytes d (pa % 128) n }) ∧
  (∀ (s t : State) (a : Nat) (r : LineRef) (h : HomeRef) (off : Nat) (bs : List Byte) (old : Line), s.homeRef r = h →
    (s.dirOf h.line).held = none → (s.dirOf h.line).sync = true → off < 8 → bs ≠ [] →
    s.agentUpdate a h s.hostCos.toNat none (fun d => (syncLine (lineField (mergeLine d (placeBytes off bs) (byteMask off bs.length)) 0 64)
      (lineEpoch d + 1) (BitVec.allOnes 512), BitVec.allOnes 128)) = .ok (old, t) → s.hostStore a r off bs = .ok t)

/-! ### Links, routing and lower-deck requests (R379–R388) -/

/-- t is s but for one router, which has become x. -/
def RouterIs (s t : State) (r : Nat) (x : Router) (es : List Instr) : Prop :=
  t = { s with routers := t.routers, agenda := s.agenda ++ es } ∧ t.router r = x ∧ ∀ q, q ≠ r → t.router q = s.router q

/-- A port that has left the up state: nothing of its link remains. -/
def linkLost (q : Port) (st : Nat) : Port :=
  { q with st := st, gen := 0, tx := 0, rx := 0, buf := [], tries := 0, used := [], part := [], wait := [] }

/-- Ports (R379, R380, R384). A port in training that settles within 1 ms on the highest generation that both ends allow is up,
with its peer; one that does not is failed; EN written 0 takes it down: in every sweep its channels are then closed. The oldest
flit not acknowledged is sent again and counted, and after 1,024 times the port fails. A flit whose CRC matches and that is the
next in order is accepted and acknowledged, one accepted before is acknowledged again, and one whose CRC does not match changes
nothing; an acknowledgement removes what it covers, and the flits of a marker, which takes no room, return their credit. -/
def Sys2Proof.Claim.Ports : Prop :=
  (∀ (s : State) (r p peer pport : Nat) (g : BitVec 2), r < 8 → p < 9 → ((s.router r).port p).st = 1 → ((s.router r).port p).en = true →
    s.time - ((s.router r).port p).since < 4000000 →
    (((s.router r).port p).cap &&& g ≠ 0 → ∃ t, exec (.portTrainingComplete r p g peer pport) s = .next t ∧ RouterIs s t r (t.router r) [] ∧
      (t.router r).port p = { linkLost ((s.router r).port p) 2 with
        gen := if ((s.router r).port p).cap.getLsbD 1 && g.getLsbD 1 then 2 else 1, peer := peer % 256, pport := pport % 16 } ∧
      ∀ q, q ≠ p → (t.router r).port q = (s.router r).port q) ∧
    (((s.router r).port p).cap &&& g = 0 → exec (.portTrainingComplete r p g peer pport) s = .next s)) ∧
  (∀ (s : State) (r p : Nat), r < 8 → p < 9 → ((s.router r).port p).st = 1 → 4000000 ≤ s.time - ((s.router r).port p).since →
    ∃ t, exec (.portTrainingTimeout r p) s = .next t ∧ RouterIs s t r (t.router r) [] ∧
      (t.router r).port p = linkLost ((s.router r).port p) 3 ∧ (∀ q, q ≠ p → (t.router r).port q = (s.router r).port q) ∧
      ∀ w ∈ (t.router r).sweeps, ∀ c, c < 3 → 3 * p + c ∈ w.closed) ∧
  (∀ (s : State) (r p : Nat), r < 8 → p < 9 → ∃ t, exec (.portDisable r p) s = .next t ∧ RouterIs s t r (t.router r) [] ∧
    (t.router r).port p = { linkLost ((s.router r).port p) 0 with en := false } ∧ (∀ q, q ≠ p → (t.router r).port q = (s.router r).port q) ∧
    ∀ w ∈ (t.router r).sweeps, ∀ c, c < 3 → 3 * p + c ∈ w.closed) ∧
  (∀ (s : State) (r p : Nat), r < 8 → p < 9 → ((s.router r).port p).st = 2 → ((s.router r).port p).buf ≠ [] →
    (((s.router r).port p).tries < 1024 → ∃ t, exec (.flitRetryTimeout r p) s = .next t ∧ RouterIs s t r (t.router r) [] ∧
      (t.router r).port p = { (s.router r).port p with
        tries := ((s.router r).port p).tries + 1, retry := min (((s.router r).port p).retry + 1) 0xFFFFFFFF
        out := (((s.router r).port p).buf.take 1).map (fun e => ⟨e.2.1, e.1, true, e.2.2, none, []⟩) ++ ((s.router r).port p).out }) ∧
    (1024 ≤ ((s.router r).port p).tries → ∃ t, exec (.flitRetryTimeout r p) s = .next t ∧ RouterIs s t r (t.router r) [] ∧
      (t.router r).port p = linkLost ((s.router r).port p) 3)) ∧
  (∀ (s : State) (r p : Nat) (f : LinkFlit) (a : Nat), r < 8 → p < 9 → ((s.router r).port p).st = 2 → f.crcOk = true → f.chan = 7 →
    f.ack = some a → f.credits = [] → ((s.router r).port p).wait = [] → ((s.router r).port p).buf.any (fun e => e.1 ≤ a) = true →
    ∃ t, exec (.flitReceive r p f) s = .next t ∧ RouterIs s t r (t.router r) [] ∧ (t.router r).port p = { (s.router r).port p with
      buf := ((s.router r).port p).buf.filter (fun e => a < e.1), tries := 0 }) ∧
  (∀ (s : State) (r p : Nat) (f : LinkFlit), f.crcOk = false → exec (.flitReceive r p f) s = .next s) ∧
  (∀ (s : State) (r p : Nat) (f : LinkFlit), r < 8 → p < 9 → ((s.router r).port p).st = 2 → f.crcOk = true → f.chan < 7 → f.ack = none →
    f.credits = [] → ((s.router r).port p).wait = [] → f.seq < ((s.router r).port p).rx →
    ∃ t, exec (.flitReceive r p f) s = .next t ∧ RouterIs s t r (t.router r) [] ∧ (t.router r).port p = { (s.router r).port p with
      out := ⟨7, 0, true, 0, some (((s.router r).port p).rx - 1), []⟩ :: ((s.router r).port p).out }) ∧
  (∀ (s : State) (r p : Nat) (f : LinkFlit), r < 8 → p < 9 → ((s.router r).port p).st = 2 → f.crcOk = true → f.chan < 7 → f.ack = none →
    f.credits = [] → ((s.router r).port p).wait = [] → f.seq = ((s.router r).port p).rx → tabGet [] ((s.router r).port p).part f.chan = [] →
    bufferedFlits ((s.router r).input p f.chan) < 32 → (f.data.extractLsb' 25 9).toNat = 0 →
    (f.data.extractLsb' 34 6 = 0x3E → ∃ t, exec (.flitReceive r p f) s = .next t ∧
      RouterIs s t r (t.router r) [.markerArrival r p f.chan f.data] ∧ ((t.router r).port p).rx = f.seq + 1 ∧
      (t.router r).inputs = (s.router r).inputs ∧ ((t.router r).port p).out =
        ⟨7, 0, true, 0, none, [f.chan]⟩ :: ⟨7, 0, true, 0, some f.seq, []⟩ :: ((s.router r).port p).out) ∧
    (f.data.extractLsb' 34 6 ≠ 0x3E → (s.router r).sweeps = [] → ∃ t, exec (.flitReceive r p f) s = .next t ∧ RouterIs s t r (t.router r) [] ∧
      ((t.router r).port p).rx = f.seq + 1 ∧ ((t.router r).port p).out = ⟨7, 0, true, 0, some f.seq, []⟩ :: ((s.router r).port p).out ∧
      (t.router r).input p f.chan = (s.router r).input p f.chan ++ [⟨f.data, []⟩]))

/-- The fields of a header but HOPS, which is one less. -/
def Hopped (p q : Packet) : Prop :=
  q.payload = p.payload ∧ q.field 19 6 = p.field 19 6 - 1 ∧ q.field 0 19 = p.field 0 19 ∧ q.field 25 487 = p.field 25 487

/-- Routing (R382, R384). The first packet of an input channel that may move has HOPS lowered by one: sent on by the port
that the routing table names for its destination, when that port is up and the channel's credits cover the whole packet, and
otherwise left where it is; delivered here when the table names 15; refused, with an error response of class 14 to its
source, when HOPS was 0 or the table names no port. The flits of what leaves a port's input return their credits to its far end. -/
def Sys2Proof.Claim.Routing : Prop :=
  ∀ (s : State) (r input : Nat) (c : Chan) (p : Packet) (rest : List Packet), r < 8 → input < 10 → c < 7 → (s.router r).sweeps = [] →
    (s.router r).input input c = p :: rest →
    ∃ q, Hopped p q ∧
      (let route := tabGet 0 (s.router r).routes (p.field 0 8)
       let taken := (s.setRouter r ((s.router r).setInput input c rest)).returnCredits r input c p.flits
       ((q.field 19 6 = 0 ∨ (9 ≤ route ∧ route < 15)) → exec (.packetRoute r input c) s = .next (taken.refusePacket r q 14)) ∧
       (q.field 19 6 ≠ 0 → route = 15 → exec (.packetRoute r input c) s = .next (taken.deliverPacket r q)) ∧
       (q.field 19 6 ≠ 0 → route < 9 → ((s.router r).port route).st = 2 → ((s.router r).port route).wait = [] →
         tabGet 0 ((s.router r).port route).used c + q.flits ≤ 32 →
         ∃ t, exec (.packetRoute r input c) s = .next t ∧ RouterIs s t r (t.router r) [] ∧ (t.router r).input input c = rest ∧
           ((t.router r).port route).tx = ((s.router r).port route).tx + q.flits ∧
           (((t.router r).port route).buf.map (fun e => e.2)) = ((s.router r).port route).buf.map (fun e => e.2) ++ q.flitsOf.map (fun f => (c, f)) ∧
           tabGet 0 ((t.router r).port route).used c = tabGet 0 ((s.router r).port route).used c + q.flits ∧
           (input < 9 → ((s.router r).port input).st = 2 → ⟨7, 0, true, 0, none, List.replicate p.flits c⟩ ∈ ((t.router r).port input).out)) ∧
       (q.field 19 6 ≠ 0 → route < 9 → (((s.router r).port route).st ≠ 2 ∨ 32 < tabGet 0 ((s.router r).port route).used c + q.flits) →
         exec (.packetRoute r input c) s = .next s))

/-- Ports and routing. -/
def Obligations.PortsAndRouting : Prop := Ports ∧ Routing

/-- Lower-deck requests (R386, R388). The answer of a request that is outstanding returns its bytes to its window, a sample of it
unless no window was charged, and ends it, as performed with the bytes that the answer carries or with the error's class; at its deadline a request ends with class 14, whether or not what it asked for
has been performed, and its bytes return to its window. An answer with no request outstanding is discarded. -/
def Obligations.LowerDeck : Prop :=
  (∀ (s : State) (tag : Nat) (r : LowerReq) (t : Word64), tabFind s.lower tag = some r → r.sent = some t →
    (let s1 : State := { s with
       windows := tabSet Window.reset s.windows (r.ctx * 256 + r.peer)
         (if r.bytes = 0 then s.window r.ctx r.peer else (s.window r.ctx r.peer).complete r.bytes (s.ptime - t).toNat s.ptime)
       lower := tabDel s.lower tag }
     (∀ d, exec (.lowerCompletion tag (.performed d)) s = .next (((s1.lowerData r d).lowerDone tag r).afterLower r.core)) ∧
     ∀ k, exec (.lowerCompletion tag (.error k)) s = .next ((s1.lowerFailed tag k r).afterLower r.core))) ∧
  (∀ (s : State) (tag : Nat) (x : LowerResult), tabFind s.lower tag = none → exec (.lowerCompletion tag x) s = .next s) ∧
  (∀ (s : State) (tag : Nat) (r : LowerReq) (t : Word64), tabFind s.lower tag = some r → r.sent = some t → r.deadline.toNat ≤ s.ptime.toNat →
    (s.ctx r.ctx).job.toNat ∉ s.stopped →
    exec (.fabricTimeout tag false) s = .next ((({ s with
      windows := tabSet Window.reset s.windows (r.ctx * 256 + r.peer) { s.window r.ctx r.peer with out := (s.window r.ctx r.peer).out - r.bytes }
      lower := tabDel s.lower tag } : State).lowerFailed tag 14 r).afterLower r.core)) ∧
  (∀ (s : State) (tag : Nat) (r : LowerReq) (t : Word64), tabFind s.lower tag = some r → r.sent = some t → r.deadline.toNat ≤ s.ptime.toNat →
    (s.ctx r.ctx).job.toNat ∉ s.stopped →
    exec (.fabricTimeout tag true) s = .next ((({ s.lowerEffect tag r with
      windows := tabSet Window.reset (s.lowerEffect tag r).windows (r.ctx * 256 + r.peer)
        { s.window r.ctx r.peer with out := (s.window r.ctx r.peer).out - r.bytes }
      lower := tabDel (s.lowerEffect tag r).lower tag } : State).lowerFailed tag 14 r).afterLower r.core)) ∧
  (∀ (w : Window) (n dt : Nat) (now : Word64), (w.complete n dt now).out = w.out - n) ∧
  (∀ (s : State) (r : LowerReq) (d : List Byte), s.lowerData r [] = s ∧
    (d ≠ [] → d.length = maskCount r.mask → ∀ i, i < 128 →
      memByte (s.lowerData r d) (s.forward (r.pa / 128) * 128 + i) =
        if r.mask.getLsbD i then d.getD (maskCount (r.mask &&& byteMask 0 i)) 0 else memByte s (s.forward (r.pa / 128) * 128 + i)))

/-! ### Collective steps (R221–R224, R389–R393) -/

/-- CSTEP and CABORT. A step that its checks pass is accepted when a slot, room on its barrier and room in its span's step
buffer are there: it stands in the lowest free slot with its five descriptor values, counted among the chain's steps that
name its peer (R221, R389, R390); without room the record parks with reason 10. CABORT ends every step of the context, or of
one chain, that has not formed its results, discards held values, and goes on (R224). -/
def Obligations.StepWords : Prop :=
  (∀ (f : FmtA) (s : State) (e : Iss) (bar : Option Nat), Runs (.cstep f) f.guard e s →
    s.issued.checksThenBar e (stepChecks f e s.issued) (if f.a = 0xF8 then none else some (e.g.read f.a 2 0)) = .ok bar →
    (let n := ((e.desc f 2).setWidth 32).toNat
     let tag := ((e.desc f 2).extractLsb' 40 8).toNat
     let peer := ((e.desc f 2).extractLsb' 32 8).toNat
     let room := (s.core e.core).steps.length < 32 ∧ (s.core e.core).pendRoom bar = true ∧ s.issued.stepBytes (tag % 8) + n * 4 ≤ 4 * 2 ^ 20
     (room → ∀ j, tabFree (s.core e.core).steps 32 = some j → (f.mod.getLsbD 10 = true ∨ (s.chain e.g.ctx tag).broken = none) →
       ∃ t g' x, exec (.cstep f) s = .next t ∧
         t = { s.issued with agenda := t.agenda, cores := t.cores, chains := t.chains, nextStep := s.nextStep + 1 } ∧
         tabFind (t.core e.core).steps j = some x ∧ x.instr = .cstep f ∧ x.vals = (List.range 5).map (e.desc f) ∧ x.ctx = e.g.ctx ∧
         x.launch = e.g.launch ∧ x.slot = e.slot ∧ x.bar = bar ∧ x.order = s.nextStep ∧ x.results = none ∧ x.mine = none ∧
         x.gen = (if f.mod.getLsbD 10 then (s.chain e.g.ctx tag).gen + 1 else (s.chain e.g.ctx tag).gen) ∧ (t.chain e.g.ctx tag).gen = x.gen ∧
         x.index = tabGet 0 (s.chain e.g.ctx tag).counts peer + 1 ∧ tabGet 0 (t.chain e.g.ctx tag).counts peer = x.index ∧
         (∀ i, i ≠ j → tabFind (t.core e.core).steps i = tabFind (s.core e.core).steps i) ∧
         t.group e.core e.slot = some g' ∧ Moves e.g g' e.prec e.q.place.after ∧ SameRegs e.g g') ∧
     (¬room → CoreParks (.cstep f) s e (s.core e.core) 10 0xE0))) ∧
  (∀ (f : FmtA) (s s1 : State) (e : Iss), Runs (.cabort f) f.guard e s →
    s.issued.abortChains e.g.ctx (if f.mod.getLsbD 7 then none else some ((e.g.read f.a 2 0).setWidth 8).toNat) = s1 →
    GoesOn (.cabort f) s s1 e SameRegs) ∧
  (∀ (s : State) (x tag core j : Nat) (y : StepOp), tabFind (s.core core).steps j = some y → y.ctx = x → y.results = none → y.tag = tag →
    ∀ k ∈ [none, some tag], tabFind ((s.abortChains x k).core core).steps j = none ∧ ((s.abortChains x k).chain x tag).held = none)

/-- The work on a step. STEP_PAIR of the oldest step of its chain takes the elements it sends and the elements it keeps: of
BUF for a .first step, of the chain's held values otherwise (R222). A data packet gives the step that it belongs to its
values, or waits for that step (R389, R390). A step that has all of both, before its deadline, forms its results: held by
the chain, or, for a .last step, to be written to OUT (R222, R223). -/
def Sys2Proof.Claim.StepData : Prop :=
  (∀ (s s1 s2 : State) (core j : Nat) (x : StepOp) (snd kept : List Word32), tabFind (s.core core).steps j = some x → x.mine = none →
    x.hold = none → s.stepTurn x = true → s2.stepInbox = [] →
    (x.first = true ∧ s.bufElems core x x.soff = .ok (snd, s1) ∧ s1.bufElems core x x.koff = .ok (kept, s2) ∨
      x.first = false ∧ s2 = s ∧ ∃ h, (s.chain x.ctx x.tag).held = some h ∧ x.soff + x.n ≤ h.length ∧ x.koff + x.n ≤ h.length ∧
        snd = (h.drop x.soff).take x.n ∧ kept = (h.drop x.koff).take x.n) →
    tabFind (s2.core core).steps j = some x →
    ∃ t, exec (.stepPair core j) s = .next t ∧ t = { s2 with cores := t.cores } ∧
      tabFind (t.core core).steps j = some { x with send := snd, mine := some kept } ∧
      ∀ i, i ≠ j → tabFind (t.core core).steps i = tabFind (s2.core core).steps i) ∧
  (∀ (s : State) (p : StepPacket), s.allSteps.find? (fun y => y.2.2.takes p) = none →
    exec (.stepDataArrival p) s = .next { s with stepInbox := s.stepInbox ++ [p] }) ∧
  (∀ (s : State) (p : StepPacket) (core j : Nat) (x : StepOp), s.allSteps.find? (fun y => y.2.2.takes p) = some (core, j, x) →
    tabFind (s.core core).steps j = some x →
    (p.count ≠ x.n → exec (.stepDataArrival p) s = .next (s.failStep core j 3 x.buf)) ∧
    (p.count = x.n → ∃ t, exec (.stepDataArrival p) s = .next t ∧ t = { s with cores := t.cores } ∧
      tabFind (t.core core).steps j = some { x with got := (x.take p).got })) ∧
  (∀ (x : StepOp) (p : StepPacket) (i : Nat) (v : Word32), p.values[i]? = some v → p.first + i < x.n →
    tabFind (x.take p).got (p.first + i) = some v) ∧
  (∀ (s : State) (core j : Nat) (x : StepOp) (m : List Word32), tabFind (s.core core).steps j = some x → x.mine = some m → x.send = [] →
    x.got.length = x.n → x.results = none → s.ptime.toNat < x.deadline.toNat →
    (let res := (m.zip x.got).map (fun e => combineElem ((x.word.mod.extractLsb' 7 3).toNat) e.1 e.2.2)
     (x.last = true → ∃ t, exec (.stepResultsFormed core j) s = .next t ∧ t = { s with cores := t.cores, chains := t.chains } ∧
       (t.chain x.ctx x.tag).held = (if (s.chain x.ctx x.tag).heldGen = x.gen then none else (s.chain x.ctx x.tag).held) ∧
       tabFind (t.core core).steps j = some { x with
         results := some res, prior := if x.first then 0 else ((s.chain x.ctx x.tag).held.map List.length).getD 0, outs := (linePieces (ptrOff x.out) (x.n * 4)).map (fun c => (c.1, c.2, none)) }) ∧
     (x.last = false → ∃ s1 : State, s1 = { s with chains := s1.chains } ∧ (s1.chain x.ctx x.tag).held = some res ∧ (s1.chain x.ctx x.tag).heldGen = x.gen ∧
       exec (.stepResultsFormed core j) s = .next (s1.closeStep core j x none false)))) ∧
  (∀ a b : Word32, combineElem 3 a b = b)

/-- How a step ends (R222–R224, R392, R393). A piece of OUT is written within the module, or ends with its error; a step whose
OUT is acknowledged completes; at its deadline a step that has not formed its results ends with class 14; a partner's abort
ends it without a record. An error frees the slot, and leaves the chain broken with its class until the next .first step, the values
that its run of the chain holds discarded: a later run, and what it holds, stay. -/
def Sys2Proof.Claim.StepEnds : Prop :=
  (∀ (s : State) (core j off len : Nat) (x : StepOp), tabFind (s.core core).steps j = some x → x.hold = none →
    s.nextOut core x = some (off, len, none) →
    exec (.stepOutAck core j .done) s = .next (s.writeOut core j x off len none) ∧
    ∀ k, (∃ o ∈ x.outs, o.1 ≠ off) → ∃ t, exec (.stepOutAck core j (.failed k)) s = .next t ∧ t = { s with cores := t.cores } ∧
      tabFind (t.core core).steps j = some { x with
        outs := x.outs.filter (fun o => o.1 != off), error := some (x.error.getD (k, ptrWithOff x.out (ptrOff x.out + off))) }) ∧
  (∀ (s : State) (core j : Nat) (x : StepOp), tabFind (s.core core).steps j = some x → x.results = none → x.deadline.toNat ≤ s.ptime.toNat →
    exec (.stepDeadline core j) s = .next (s.failStep core j 14 x.buf)) ∧
  (∀ (s : State) (core j k : Nat) (a : Word64) (x : StepOp), tabFind (s.core core).steps j = some x →
    tabFind ((s.failStep core j k a).core core).steps j = none ∧
    ((s.failStep core j k a).chain x.ctx x.tag).broken =
      (if (s.chain x.ctx x.tag).gen = x.gen then some k else (s.chain x.ctx x.tag).broken) ∧
    ((s.failStep core j k a).chain x.ctx x.tag).held =
      if (s.chain x.ctx x.tag).heldGen = x.gen then none else (s.chain x.ctx x.tag).held) ∧
  (∀ (s : State) (core j peer job chain k : Nat) (x : StepOp),
    s.allSteps.find? (fun y => y.2.2.peer == peer && y.2.2.job == job && y.2.2.tag == chain && y.2.2.index == k) = some (core, j, x) →
    tabFind (s.core core).steps j = some x → x.results = none →
    ∃ t, exec (.stepAbortReceive peer job chain k) s = .next t ∧ tabFind (t.core core).steps j = none ∧
      (t.chain x.ctx x.tag).held = if (s.chain x.ctx x.tag).heldGen = x.gen then none else (s.chain x.ctx x.tag).held)

/-- The work on collective steps, and their end. -/
def Obligations.StepWork : Prop := StepData ∧ StepEnds

/-! ### Gang switches (R395–R407) -/

/-- The command at HEAD of the gang queue. -/
def gangCommand (s : State) : BitVec 1024 := tabGet 0 s.gangSlots (s.gangHead % 16)

/-- The gang queue (R395, R396). With no command in service the one at HEAD is checked by the event of its OP: accepted, or
refused with STATUS 2 and a record of class launch refusal in the module error log; a quiesce of JOB 0 with its reserved
bits zero is accepted. A command ends with its STATUS, NREC and TEND written, and HEAD past it. A restore whose command is
accepted and whose START has passed opens the job's injection and ends with STATUS 1. -/
def Sys2Proof.Claim.GangQueue : Prop :=
  (∀ (s s1 : State) (i : Instr) (b : Bool), s.gang = none → s.gangHead < s.gangTail →
    (i = .gangSwitchOut ∧ ((gangCommand s).extractLsb' 0 2 = 0 ∨ (gangCommand s).extractLsb' 0 2 = 3) ∨
      i = .gangQuiesce ∧ (gangCommand s).extractLsb' 0 2 = 2) →
    s.gangRefused (Gang.ofSlot s.gangHead (gangCommand s)) (gangCommand s) = (b, s1) →
    (b = false → exec i s = .next { s1 with gang := some (Gang.ofSlot s.gangHead (gangCommand s)) }) ∧
    (b = true → exec i s = .next ((s1.logModule
      ⟨16, 0, 0, 0, false, 0, 0, schedCore, BitVec.ofNat 64 (256 + 128 * (s.gangHead % 16)), 0, 0, 0⟩).closeGang 2 0))) ∧
  (∀ s : State, s.gang = none → s.gangHead < s.gangTail → (gangCommand s).extractLsb' 0 32 = 2 → (gangCommand s).extractLsb' 217 39 = 0 →
    (gangCommand s).extractLsb' 312 8 = 0 → (gangCommand s).extractLsb' 384 640 = 0 →
    exec .gangQuiesce s = .next { s with gang := some (Gang.ofSlot s.gangHead (gangCommand s)) }) ∧
  (∀ (s : State) (st n : Nat), st < 256 → n < 65536 → (s.closeGang st n).gang = none ∧ (s.closeGang st n).gangHead = s.gangHead + 1 ∧
    (let c := tabGet 0 (s.closeGang st n).gangSlots (s.gangHead % 16)
     c.extractLsb' 256 8 = BitVec.ofNat 8 st ∧ c.extractLsb' 264 16 = BitVec.ofNat 16 n ∧ c.extractLsb' 320 64 = s.ptime ∧
       c.extractLsb' 0 256 = (gangCommand s).extractLsb' 0 256)) ∧
  (∀ (s s1 : State), s.gang = none → s.gangHead < s.gangTail → (gangCommand s).extractLsb' 0 2 = 1 →
    s.gangRefused (Gang.ofSlot s.gangHead (gangCommand s)) (gangCommand s) = (false, s1) → s1.ptime.toNat < ((gangCommand s).extractLsb' 64 64).toNat →
    exec .gangRestore s = .next { s1 with gang := some (Gang.ofSlot s.gangHead (gangCommand s)) }) ∧
  (∀ (s : State) (g : Gang), s.gang = some g → g.op = 1 → g.start.toNat ≤ s.ptime.toNat →
    ∃ t, exec .gangRestore s = .next t ∧ t.gang = none ∧ g.job ∉ t.stopped)

/-- A switch out and a quiesce (R397–R400, R407). At START the command begins: injection stops, for its job or for all, and
every router starts its sweep. A marker closes its lower-deck input channel in the sweep of its job and GSEQ, or is noted;
the first that comes to a router with no such sweep starts one. A channel open 1 ms after its router's start closes and is
marked as such. When every channel is closed, every other marker has come, no packet is left, and every context is saved, the
command ends with STATUS 1, or 3 when some channel was closed by the limit. -/
def Sys2Proof.Claim.GangSweep : Prop :=
  (∀ (s : State) (g : Gang), s.gang = some g → g.began = false → g.op ≠ 1 → g.start.toNat ≤ s.ptime.toNat → s.allSteps = [] →
    ∃ t, exec .gangStart s = .next t ∧ t.gang = some { g with began := true } ∧ (g.op = 2 → t.quiet = true) ∧ (g.op ≠ 2 → g.job ∈ t.stopped) ∧
      ∀ r, r < 8 → ∃ w ∈ (t.router r).sweeps, w.job = g.job ∧ w.gseq = g.gseq) ∧
  (∀ (s : State) (r p c job gseq : Nat) (h : BitVec 512), r < 8 → p < 9 → c < 7 → job = (h.extractLsb' 40 16).toNat →
    gseq = (h.extractLsb' 64 32).toNat → ((∃ w ∈ (s.router r).sweeps, w.job = job ∧ w.gseq = gseq) ∨ s.gang = none) →
    ∃ t, exec (.markerArrival r p c h) s = .next t ∧ t = { s with routers := t.routers } ∧ (∀ q, q ≠ r → t.router q = s.router q) ∧
      ∃ w ∈ (t.router r).sweeps, w.job = job ∧ w.gseq = gseq ∧ (c < 3 → 3 * p + c ∈ w.closed) ∧ (3 ≤ c → 7 * p + c ∈ w.markers)) ∧
  (∀ (s : State) (r input c : Nat), r < 8 → input < 10 → c < 3 → ∃ t, exec (.sweepTimeout r input c) s = .next t ∧
    t = { s with routers := t.routers } ∧ (∀ q, q ≠ r → t.router q = s.router q) ∧
    (t.router r).sweeps = (s.router r).sweeps.map (fun w =>
      if 4000000 ≤ s.time - w.start ∧ 3 * input + c ∉ w.closed then { w with closed := (3 * input + c) :: w.closed, limited := true } else w)) ∧
  (∀ (s s1 : State) (g : Gang) (w : Nat → Sweep), s.gang = some g → g.op ≠ 1 → g.began = true →
    (∀ r, r < 8 → (s.router r).sweeps.find? (fun v => v.job = g.job) = some (w r) ∧ (s.router r).sweepClosed (w r) = true ∧
      (s.router r).sweptClean g.job = true) → (∀ x ∈ s.gangContexts g.job, (s.ctx x).state = .saved) →
    (∀ e ∈ s.outbox, 3 ≤ e.2.1 ∨ (g.job ≠ 0 ∧ e.2.2.job ≠ g.job)) →
    (let status := if (List.range 8).any (fun r => (w r).limited) then 3 else 1
     (g.op = 0 → ({ s with spmap := if g.spen then g.spmap else s.spmap } : State).tierWrite (s.gangCtx g.job) g.gran State.inGranary
          (({ s with spmap := if g.spen then g.spmap else s.spmap } : State).imageHeader g) = s1 →
        ∀ st, st = status → exec .switchOutDone s = .next (s1.closeGang st g.nrec)) ∧
     (g.op = 2 → ∃ t, exec .switchOutDone s = .next t ∧ t.gang = none ∧ t.gangHead = s.gangHead + 1 ∧ t.quiet = false ∧
       (∀ r, r < 8 → (t.router r).sweeps = (s.router r).sweeps.filter (fun v => v.job != 0)) ∧
       (tabGet 0 t.gangSlots (s.gangHead % 16)).extractLsb' 256 8 = BitVec.ofNat 8 status)))

/-- What a sweep takes (R399, R401, R402, R406). The first packet of the job on an input channel leaves its buffer and becomes
the next record of its slot area, its header fields and up to 256 payload bytes as they were; step data is discarded. A
packet of the job that came late is refused with class 15, and NLATE of the command that switched it out counts it. -/
def Sys2Proof.Claim.SweptPackets : Prop :=
  (∀ (s s1 : State) (r input c : Nat) (g : Gang) (p : Packet) (w : Sweep), r < 8 → input < 10 → c < 3 → s.gang = some g → g.op = 0 →
    g.began = true → ((s.router r).input input c).find? (fun p => p.job = g.job) = some p →
    (s.router r).sweeps.find? (fun w => w.job = g.job) = some w →
    (let s0 := (s.setRouter r ((s.router r).takeJob input c g.job)).returnCredits r input c p.flits
     (p.does = some 2 → exec (.sweepPacket r input c) s = .next s0) ∧
     (p.does ≠ some 2 → ∀ span k, span = s0.sweepSpan r p → k = tabGet 0 w.counts (30 * span + 3 * input + c) →
       s0.tierWrite (s0.gangCtx g.job) (ptrWithOff g.gran (ptrOff g.gran + recordOffset span input c k)) State.inGranary (granaryRecord p span input c k g.gseq) = s1 →
       ∃ t, exec (.sweepPacket r input c) s = .next t ∧ t = { s1 with routers := t.routers, gang := some { g with nrec := g.nrec + 1 } } ∧
         ∀ v ∈ (s1.router r).sweeps, v.job = g.job →
           { v with counts := tabSet 0 v.counts (30 * span + 3 * input + c) (k + 1) } ∈ (t.router r).sweeps))) ∧
  (∀ (s : State) (ps : List Packet) (r input c job : Nat) (p : Packet) (qs : List Packet), (s.router r).input input c = ps ++ p :: qs →
    p.job = job → (∀ q ∈ ps, q.job ≠ job) → ((s.router r).takeJob input c job).input input c = ps ++ qs) ∧
  (∀ (s : State) (r input c : Nat) (w : Sweep) (p : Packet), (s.router r).lateFirst input c = some (w, p) →
    exec (.latePacket r input c) s = .next (((s.setRouter r { s.router r with sweeps := (s.router r).sweeps.map (fun v =>
      if v.job = w.job then { v with late := tabSet [] v.late (7 * input + c) (tabGet [] v.late (7 * input + c)).tail } else v) }).refusePacket
        r p 15).countLate w.job w.gseq)) ∧
  (∀ (s : State) (job gseq n : Nat), n < 16 → job < 65536 → gseq < 2 ^ 32 → (tabGet 0 s.gangSlots n).extractLsb' 0 2 = 0 →
    (tabGet 0 s.gangSlots n).extractLsb' 16 16 = BitVec.ofNat 16 job → (tabGet 0 s.gangSlots n).extractLsb' 32 32 = BitVec.ofNat 32 gseq →
    (∀ m, m < n → (tabGet 0 s.gangSlots m).extractLsb' 0 64 ≠ (tabGet 0 s.gangSlots n).extractLsb' 0 64) →
    (∀ m, m < n → (tabGet 0 s.gangSlots m).extractLsb' 2 14 = 0) → (tabGet 0 s.gangSlots n).extractLsb' 2 14 = 0 →
    (tabGet 0 (s.countLate job gseq).gangSlots n).extractLsb' 280 32 = (tabGet 0 s.gangSlots n).extractLsb' 280 32 + 1)

/-- The gang queue, the sweep of a switch-out, and the packets that it takes. -/
def Obligations.GangSwitch : Prop := GangQueue ∧ GangSweep ∧ SweptPackets

/-! ### The scale-out network (R225, R411–R415) -/

/-- NPOST (R225, R412, R413): a request that its checks pass is accepted. On a queue pair that takes no requests it completes
with status 5; a .send longer than one packet with status 2; otherwise it is the last of the pair's requests, with the next
sequence number, and is started in its turn. The record goes on in each case; without room on its barrier it parks. -/
def Sys2Proof.Claim.NetworkPost : Prop :=
  ∀ (f : FmtA) (s : State) (e : Iss) (bar : Option Nat), Runs (.npost f) f.guard e s →
    s.issued.checksThenBar e (npostChecks f e s.issued) (if f.a = 0xF8 then none else some (e.g.read f.a 2 0)) = .ok bar →
    (let n := ((e.desc f 3).setWidth 24).toNat
     let q := s.qp n
     let r : NetReq :=
       { seq := q.reqs + 1, verb := verbOf (f.mod.extractLsb' 7 3).toNat, ctx := e.g.ctx, launch := e.g.launch, core := e.core, slot := e.slot
         prec := e.prec, age := e.g.age, pc := e.q.place.word, bar := bar, word := if f.b = 0xF8 then none else some (e.g.read f.b 2 0)
         ptr := e.desc f 0, remote := e.desc f 1, len := ((e.desc f 2).setWidth 32).toNat, key := (e.desc f 2).extractLsb' 32 32
         imm := (e.desc f 3).extractLsb' 32 32, psn := none, packets := [], placed := 0, place := [], hold := none, sent := 0
         descs := s.issued.descsOf e.core e.g.ctx (e.desc f 0 :: (if f.b = 0xF8 then [] else [e.g.read f.b 2 0])) }
     ((s.core e.core).pendRoom bar = false → CoreParks (.npost f) s e (s.core e.core) 10 0xE2) ∧
     ((s.core e.core).pendRoom bar = true →
       (let s1 := (s.issued.setCore e.core ((s.core e.core).barAccept bar)).setQp n { q with reqs := q.reqs + 1 }
        (q.takes = false → ∀ s2, s1.netComplete n r 5 = s2 → GoesOn (.npost f) s s2 e SameRegs) ∧
        (q.takes = true → r.verb = .send → q.payload < r.len → ∀ s2, s1.netComplete n r 2 = s2 → GoesOn (.npost f) s s2 e SameRegs) ∧
        (q.takes = true → (r.verb ≠ .send ∨ r.len ≤ q.payload) → ∀ s2,
          (s1.setQp n { s1.qp n with out := q.out ++ [r] }).netStart n = s2 → GoesOn (.npost f) s s2 e SameRegs))))

/-- Queue pairs and what they receive (R412–R415). VALID set makes a pair ready; cleared, its requests complete with status 5
and it is in reset. An acknowledgement that covers packets of requests still unfinished removes them; an answer with an
error status ends the request of the packet that it names with it (the model's choice, log 204); packets that were sent once
give a sample of the round trip. When 4 × BASE has
passed with no progress, unacknowledged packets are sent again, seven times at most; then the oldest request
ends with status 3 and the pair is in error. A request packet ahead of EPSN by less than 256 whose region takes it is
placed, EPSN passes what is contiguous, and it is acknowledged; a duplicate is only acknowledged; one that its region does not
accept is answered with status 1. -/
def Sys2Proof.Claim.QueuePairs : Prop :=
  (∀ (s : State) (n : Nat), n < 4096 → (s.qp n).valid = false → ∃ t, exec (.qpEnable n) s = .next t ∧ t = { s with qps := t.qps } ∧
    t.qp n = { s.qp n with valid := true, st := 1, tries := 0, base := 0xFFFFFFFF, since := s.ptime } ∧ ∀ k, k ≠ n → t.qp k = s.qp k) ∧
  (∀ (s : State) (n : Nat), (s.qp n).valid = true →
    ((s.qp n).out = [] → ∃ t, exec (.qpReset n) s = .next t ∧ t = { s with qps := t.qps } ∧
      t.qp n = { s.qp n with valid := false, st := 0, tries := 0, seen := [] } ∧ ∀ k, k ≠ n → t.qp k = s.qp k) ∧
    ∀ s1, ({ s with qps := tabSet QueuePair.reset s.qps n { s.qp n with st := 0, out := [], tries := 0 } } : State).completeAll n (s.qp n).out 5 = s1 →
      ∃ t, exec (.qpReset n) s = .next t ∧ t = { s1 with qps := t.qps } ∧ t.qp n = { s1.qp n with valid := false, seen := [] }) ∧
  (∀ (s : State) (n : Nat) (a : RdmaAck), (s.qp n).valid = true → (s.qp n).st = 1 → a.status = 0 →
    a.bytes = [] → (∀ o ∈ (s.qp n).out, o.psn.isSome = true ∧ o.verb ≠ .read ∧ ∃ p ∈ o.packets, ackCovers p.psn a.psn = false) →
    (∃ o ∈ (s.qp n).out, ∃ p ∈ o.packets, ackCovers p.psn a.psn = true) →
    ∃ t, exec (.rdmaAckReceive n a) s = .next t ∧ t = { s with qps := t.qps } ∧ t.qp n = { s.qp n with
      tries := 0, since := s.ptime, out := (s.qp n).out.map (fun o => { o with packets := o.packets.filter (fun p => !ackCovers p.psn a.psn) })
      base := (if (s.qp n).tries = 0 then ((s.qp n).out.filter (fun o => o.packets.any (fun p => ackCovers p.psn a.psn))).map
        (fun o => (s.ptime - o.sent).toNat) else []).foldl min (s.qp n).base }) ∧
  (∀ (s s1 : State) (n : Nat) (a : RdmaAck) (r : NetReq), (s.qp n).valid = true → (s.qp n).st = 1 → a.status ≠ 0 →
    (s.qp n).out.find? (fun o => o.packets.any (fun p => p.psn == a.psn)) = some r →
    (s.setQp n { s.qp n with
      tries := 0, since := s.ptime, out := (s.qp n).out.filter (fun o => o.seq != r.seq)
      base := if (s.qp n).tries = 0 then min (s.qp n).base (s.ptime - r.sent).toNat else (s.qp n).base }).netComplete n r a.status = s1 →
    (s1.qp n).out = [] → ∃ t, exec (.rdmaAckReceive n a) s = .next t ∧ t = { s1 with qps := t.qps } ∧ ∀ k, t.qp k = s1.qp k) ∧
  (∀ (s : State) (n : Nat), (s.qp n).valid = true → (s.qp n).st = 1 → (∃ r ∈ (s.qp n).out, r.psn.isSome = true ∧ r.packets ≠ []) →
    4 * (s.qp n).base ≤ (s.ptime - (s.qp n).since).toNat → (s.qp n).tries < 7 → ∃ t, exec (.rdmaResendTimeout n) s = .next t ∧ t = { s with qps := t.qps, netOut :=
      ((((s.qp n).out.flatMap NetReq.packets).map (fun p => NetOut.request n p)).reverse ++ s.netOut) } ∧
      t.qp n = { s.qp n with tries := (s.qp n).tries + 1, since := s.ptime }) ∧
  (∀ (s : State) (n : Nat), (s.ptime - (s.qp n).since).toNat < 4 * (s.qp n).base → exec (.rdmaResendTimeout n) s = .next s) ∧
  (∀ (s : State) (n : Nat) (r : NetReq), (s.qp n).valid = true → (s.qp n).st = 1 → 7 ≤ (s.qp n).tries →
    4 * (s.qp n).base ≤ (s.ptime - (s.qp n).since).toNat → (s.qp n).out.find? (fun r => r.psn.isSome && !r.packets.isEmpty) = some r → exec (.rdmaResendTimeout n) s =
      .next ((({ s with qps := tabSet QueuePair.reset s.qps n { s.qp n with out := (s.qp n).out.filter (fun o => o.seq != r.seq) } } : State).netComplete
        n r 3).flushQp n 2)) ∧
  (∀ (s : State) (p : RdmaPacket), (s.qp p.qp).valid = true → (s.qp p.qp).st = 1 → (s.qp p.qp).mtu ≠ 3 → (s.qp p.qp).epsn < 2 ^ 24 → p.psn < 2 ^ 24 →
    (∀ k, 0 < k → k ≤ 2 ^ 23 → p.psn = ((s.qp p.qp).epsn + 2 ^ 24 - k) % 2 ^ 24 → p.verb ≠ .read →
      exec (.rdmaPacketReceive p) s = .next { s with netOut := .answer p.qp ⟨((s.qp p.qp).epsn + 2 ^ 24 - 1) % 2 ^ 24, 0, [], 0⟩ :: s.netOut }) ∧
    (p.psn = (s.qp p.qp).epsn → (s.qp p.qp).seen = [] → p.verb = .write → s.packetOk (s.qp p.qp) p = true →
      ∀ s1, s.intoRegion (s.qp p.qp) p.key p.offset p.bytes = .ok s1 → s1.qp p.qp = s.qp p.qp →
      ∃ t, exec (.rdmaPacketReceive p) s = .next t ∧
        t = { s1 with qps := t.qps, netOut := .answer p.qp ⟨p.psn, 0, [], 0⟩ :: s1.netOut } ∧
        t.qp p.qp = { s.qp p.qp with epsn := (p.psn + 1) % 2 ^ 24 }) ∧
    (p.psn = (s.qp p.qp).epsn → (s.qp p.qp).seen = [] → (p.verb = .write ∨ p.verb = .writei) → s.packetOk (s.qp p.qp) p = false →
      ∃ t, exec (.rdmaPacketReceive p) s = .next t ∧ t = { s with qps := t.qps, netOut := .answer p.qp ⟨p.psn, 1, [], 0⟩ :: s.netOut } ∧
        t.qp p.qp = { s.qp p.qp with epsn := (p.psn + 1) % 2 ^ 24 }))

/-- NPOST and queue pairs. -/
def Obligations.Network : Prop := NetworkPost ∧ QueuePairs

/-! ### Errors, the loss of peers, invariants and reset (R375, R428–R432) -/

/-- A change of the LIVE mask (R431, R432). With no other module lost it takes the mask and MEPOCH alone. With one lost, lines'
entries first drop its agents: an owner's line takes its home value, sharers and Pw holders are named no more; then what is
outstanding to it ends, its windows go back to reset, and cached translations to it are dropped. -/
def Sys2Proof.Claim.LiveChange : Prop :=
  (∀ (s : State) (live : BitVec 256) (epoch : Word64), (∀ m, m < 256 → m ≠ s.moduleId.toNat → s.live.getLsbD m = true → live.getLsbD m = true) →
    exec (.liveChange live epoch) s = .next { s with live := live, mepoch := epoch }) ∧
  (∀ (s s1 : State) (live : BitVec 256) (epoch : Word64) (m : Nat), m < 256 → m ≠ s.moduleId.toNat → s.live.getLsbD m = true →
    live.getLsbD m = false → (∀ k, k < 256 → k ≠ m → k ≠ s.moduleId.toNat → s.live.getLsbD k = true → live.getLsbD k = true) →
    ({ s with live := live, mepoch := epoch } : State).recoverLines = s1 → (∀ r ∈ s1.lower, r.2.peer ≠ m) →
    (∀ r ∈ s1.upper, r.2.answer = none → paModule (r.2.sent * 128) ≠ m) → (∀ y ∈ s1.allSteps, y.2.2.peer ≠ m) →
    exec (.liveChange live epoch) s = .next { s1 with
      windows := s1.windows.filter (fun w => w.1 % 256 != m), xlats := s1.xlats.filter (fun t => paModule t.pa != m && t.mirror != m) }) ∧
  (∀ (s : State) (d : DirEntry),
    (d.state = .x → s.isLive (d.owner / 8) = false → (s.withoutLost d).state = .i) ∧
    (d.state = .o → s.isLive (d.owner / 8) = false → (s.withoutLost d).state = .i ∧ (s.withoutLost d).sharers = []) ∧
    (d.state = .s → (s.withoutLost d).sharers = d.sharers.filter (fun a => s.isLive (a / 8)) ∧
      ((s.withoutLost d).state = .i ↔ (s.withoutLost d).sharers = [])) ∧
    (d.state = .p → (s.withoutLost d).masks = d.masks.filter (fun e => s.isLive (e.1 / 8)) ∧
      ((s.withoutLost d).state = .i ↔ (s.withoutLost d).masks = [])))

/-- Soft errors (R428, R429). A corrected error is recorded in the module error log with class 20, and one of memory counts
for its frame, of which the sixteenth within the window retires it. An uncorrectable one: of a register, the lane whose
next word reads it takes class 19; of a clean L1 line, the line is dropped and the error recorded as corrected; of memory,
the line is marked failed, the error recorded with class 19 and the frame retired; of the matrix engine, the operation
running ends with error status and writes nothing; of a router's buffer, the packet is refused with class 19; of a table of
a context, its save is marked failed and it is pre-empted. -/
def Sys2Proof.Claim.SoftErrors : Prop :=
  (∀ (s : State) (e : ErrorSite), (∀ l, e ≠ .memory l) → exec (.errorCorrected e) s = .next (s.logError 20 0 (siteCore e) (siteAddr e))) ∧
  (∀ (s s1 : State) (l : Nat) (ts : List Word64), s.ownMemory (l * 128) = true →
    s.logError 20 (s.correctedCause (l * 128)) 0 (BitVec.ofNat 64 (l * 128)) = s1 →
    ts = s1.ptime :: (tabGet [] s1.corrected (l * 128 / 4096)).filter (fun t => (s1.ptime - t).toNat ≤ 2 ^ 40) →
    (ts.length < 16 → exec (.errorCorrected (.memory l)) s = .next { s1 with corrected := tabPut s1.corrected (l * 128 / 4096) (ts.take 16) }) ∧
    (16 ≤ ts.length → exec (.errorCorrected (.memory l)) s =
      .next (({ s1 with corrected := tabPut s1.corrected (l * 128 / 4096) (ts.take 16) } : State).retireFrame (l * 128)))) ∧
  (∀ (s : State) (core slot reg lane i : Nat) (g : Group), s.group core slot = some g → reg < 192 → lane < 32 → i < 4 →
    (g.prec i).state = .running → (g.prec i).lanes.getLsbD lane = true →
    (∀ j, j < i → ¬((g.prec j).state = .running ∧ (g.prec j).lanes.getLsbD lane = true)) →
    exec (.errorUncorrectable (.register core slot reg lane)) s = .next (s.trapFault core slot i (maskOf [lane]) (g.prec i).place 19
      (siteAddr (.register core slot reg lane)) 0 0 0 (lowestLane (maskOf [lane])))) ∧
  (∀ (s : State) (core x line slot lane : Nat) (y : L1Line), tabFind (s.core core).l1 (l1Key x line) = some y → y.dirty = 0 →
    exec (.errorUncorrectable (.l1 core x line slot lane)) s =
      .next ((s.dropL1 core (l1Key x line)).logError 20 0 core (BitVec.ofNat 64 (line * 128)))) ∧
  (∀ (s : State) (l : Nat), s.ownMemory (l * 128) = true → l ∉ s.failed →
    exec (.errorUncorrectable (.memory l)) s = .next ((({ s with failed := l :: s.failed } : State).logError 19 0 0
      (BitVec.ofNat 64 (l * 128))).retireFrame (l * 128))) ∧
  (∀ (s : State) (core : Nat), ∃ t, exec (.errorUncorrectable (.matrix core)) s = .next t ∧ CoreIs s t core { s.core core with
    matrix := { (s.core core).matrix with running := (s.core core).matrix.running.map (fun op =>
      { op with error := some (op.error.getD 19), run := none, tileWrites := [], scratchWrites := [] }) } } s.agenda) ∧
  (∀ (s : State) (r input c : Nat) (p : Packet) (ps : List Packet), r < 8 → input < 10 → c < 7 → (s.router r).input input c = p :: ps →
    exec (.errorUncorrectable (.router r input c)) s = 
      .next (((s.setRouter r ((s.router r).setInput input c ps)).returnCredits r input c p.flits).refusePacket r p 19)) ∧
  (∀ (s s1 : State) (core x : Nat), x < 64 → (s.ctx x).valid = true →
    ({ s with ctxs := tabSet Context.reset s.ctxs x { s.ctx x with saveFailed := true } } : State).logError 19 0 core (BitVec.ofNat 64 core) = s1 →
    exec (.errorUncorrectable (.table core x)) s = .next (s1.preempt x))

/-- The loss of peers, and soft errors. -/
def Obligations.LossAndErrors : Prop := LiveChange ∧ SoftErrors

/-- Every step keeps the canonical form of memory: addresses strictly rising, no byte listed that reads as an unlisted one
does. The form is the model's; that an unlisted byte reads 0 is its choice (log entry 1). -/
def Obligations.MemoryStaysCanonical : Prop :=
  ∀ s t : State, Memory.wf s.mem = true → step s = .next t → Memory.wf t.mem = true

/-- Memory has the canonical form at reset, and every byte of it reads 0 (R448). -/
def Sys2Proof.Claim.MemoryAtReset : Prop := Memory.wf State.reset.mem = true ∧ ∀ a, memByte State.reset a = 0

/-- The module right after reset, at the values that the spec's tables give: the boot status word is 0, every context is free
and not valid with its cluster map the identity, no queue is enabled, FTO is 100,000, every window is at its reset values,
every port is enabled, down and allows both generations, every cluster island is at frequency step 80 and every L2 island at
40, PCAP is 3,000 W, every class-of-service mask is all ones. -/
def Sys2Proof.Claim.ResetValues : Prop :=
  State.reset.bootStatus = 0 ∧
  (∀ x, (State.reset.ctx x).valid = false ∧ (State.reset.ctx x).state = .free ∧ (State.reset.ctx x).preq = false ∧
    (State.reset.ctx x).rreq = false ∧ (State.reset.ctx x).cmap = 0xFEDCBA9876543210) ∧
  (∀ n, (State.reset.queue n).en = false) ∧ State.reset.fto = 100000 ∧
  (∀ x p, State.reset.window x p = ⟨65536, 0, 0xFFFFFFFF, 0xFFFFFFFF, 0, 0⟩) ∧
  (∀ r p, ((State.reset.router r).port p).en = true ∧ ((State.reset.router r).port p).gencap = 3 ∧ ((State.reset.router r).port p).st = 0 ∧
    ((State.reset.router r).port p).gen = 0) ∧
  (∀ i, i < 16 → (State.reset.island i).ftgt = 80 ∧ (State.reset.island i).fcur = 80) ∧
  (∀ i, 16 ≤ i → i < 20 → (State.reset.island i).ftgt = 40 ∧ (State.reset.island i).fcur = 40) ∧
  State.reset.pcap = 3000 ∧ (∀ k, tabGet 0xFFFF State.reset.cosMasks k = 0xFFFF) ∧ State.reset.cores = [] ∧ State.reset.tseq = State.reset.tdone

/-- The module right after reset. -/
def Obligations.AtReset : Prop := MemoryAtReset ∧ ResetValues
end

