-- ==== Sys2Proof/Laws/Tables.lean ====
section
/-! SUPPORT. Sys2Proof/Laws/Tables.lean: reads after writes of sparse tables, and that every table operation keeps the
canonical form. The reads hold of every table, canonical or not. -/

namespace Sys2Proof.Machine

variable {α : Type}

theorem tabFind_put_self (t : Table α) (k : Nat) (v : α) : tabFind (tabPut t k v) k = some v := by
  induction t with
  | nil => simp [tabPut, tabFind]
  | cons e t ih =>
    obtain ⟨k', v'⟩ := e
    simp only [tabPut]
    split
    · simp [tabFind]
    · split
      · simp [tabFind]
      · rename_i h2; simp [tabFind, h2, ih]

theorem tabFind_put_ne (t : Table α) {k j : Nat} (v : α) (h : j ≠ k) : tabFind (tabPut t k v) j = tabFind t j := by
  induction t with
  | nil => simp [tabPut, tabFind, h]
  | cons e t ih =>
    obtain ⟨k', v'⟩ := e
    simp only [tabPut]
    split
    · simp [tabFind, h]
    · split
      · rename_i h2; subst h2; simp [tabFind, h]
      · simp [tabFind, ih]

theorem tabFind_put (t : Table α) (k j : Nat) (v : α) : tabFind (tabPut t k v) j = if j = k then some v else tabFind t j := by
  by_cases h : j = k
  · subst h; simp [tabFind_put_self]
  · simp [h, tabFind_put_ne]

theorem tabFind_del (t : Table α) (k j : Nat) : tabFind (tabDel t k) j = if j = k then none else tabFind t j := by
  induction t with
  | nil => simp [tabDel, tabFind]
  | cons e t ih =>
    obtain ⟨k', v'⟩ := e
    simp only [tabDel, List.filter_cons] at ih ⊢
    by_cases h1 : k' = k
    · subst h1
      simp only [bne_self_eq_false, Bool.false_eq_true, ↓reduceIte, ih, tabFind]
      split <;> simp_all
    · simp only [bne_iff_ne, ne_eq, h1, not_false_eq_true, ↓reduceIte, tabFind, ih]
      split
      · rename_i h2; subst h2; simp [h1]
      · rfl

theorem tabGet_put (d : α) (t : Table α) (k j : Nat) (v : α) : tabGet d (tabPut t k v) j = if j = k then v else tabGet d t j := by
  simp only [tabGet, tabFind_put]; split <;> rfl

theorem tabGet_set [DecidableEq α] (d : α) (t : Table α) (k j : Nat) (v : α) :
    tabGet d (tabSet d t k v) j = if j = k then v else tabGet d t j := by
  simp only [tabSet]
  split
  · rename_i h; subst h; simp only [tabGet, tabFind_del]; split <;> rfl
  · exact tabGet_put ..

theorem tabFind_mod (t : Table α) (k j : Nat) (f : α → α) :
    tabFind (tabMod t k f) j = if j = k then (tabFind t j).map f else tabFind t j := by
  induction t with
  | nil => simp [tabMod, tabFind]
  | cons e t ih =>
    obtain ⟨k', v'⟩ := e
    simp only [tabMod, List.map_cons] at ih ⊢
    by_cases h1 : k' = k
    · subst h1
      simp only [↓reduceIte, tabFind, ih]
      split <;> simp_all
    · simp only [h1, ↓reduceIte, tabFind, ih]
      split
      · rename_i h2; subst h2; simp [h1]
      · rfl

theorem tabFind_map (t : Table α) (f : α → α) (j : Nat) :
    tabFind (t.map (fun e => (e.1, f e.2))) j = (tabFind t j).map f := by
  induction t with
  | nil => rfl
  | cons e t ih =>
    obtain ⟨k', v'⟩ := e
    simp only [List.map_cons, tabFind, ih]
    split <;> simp

/-! ### Canonical form -/

theorem tabSorted_cons {k : Nat} {v : α} {t : Table α} :
    tabSorted ((k, v) :: t) = true ↔ (∀ e ∈ t.head?, k < e.1) ∧ tabSorted t = true := by
  cases t with
  | nil => simp [tabSorted]
  | cons e t => obtain ⟨k', v'⟩ := e; simp [tabSorted]

theorem tabSorted_all {k : Nat} {v : α} {t : Table α} (h : tabSorted ((k, v) :: t) = true) : ∀ e ∈ t, k < e.1 := by
  induction t generalizing k v with
  | nil => simp
  | cons e t ih =>
    obtain ⟨k', v'⟩ := e
    rw [tabSorted_cons] at h
    simp only [List.head?_cons, Option.mem_def, Option.some.injEq, forall_eq'] at h
    intro e he
    rcases List.mem_cons.mp he with rfl | he
    · exact h.1
    · exact Nat.lt_trans h.1 (ih h.2 e he)

theorem tabPut_head (t : Table α) (k : Nat) (v : α) (m : Nat) (hm : m < k) (h : ∀ e ∈ t.head?, m < e.1) :
    ∀ e ∈ (tabPut t k v).head?, m < e.1 := by
  cases t with
  | nil => simpa [tabPut] using hm
  | cons e t =>
    obtain ⟨k', v'⟩ := e
    simp only [List.head?_cons, Option.mem_def, Option.some.injEq, forall_eq'] at h
    simp only [tabPut]
    split
    · simpa using hm
    · split <;> simp_all

theorem tabSorted_put (t : Table α) (k : Nat) (v : α) (h : tabSorted t = true) : tabSorted (tabPut t k v) = true := by
  induction t with
  | nil => simp [tabPut, tabSorted]
  | cons e t ih =>
    obtain ⟨k', v'⟩ := e
    have h' := tabSorted_cons.mp h
    simp only [tabPut]
    split
    · rename_i h1; rw [tabSorted_cons]; exact ⟨by simpa using h1, h⟩
    · split
      · rename_i h2; subst h2; rw [tabSorted_cons]; exact h'
      · rw [tabSorted_cons]; exact ⟨tabPut_head t k v k' (by omega) h'.1, ih h'.2⟩

theorem tabSorted_filter (t : Table α) (p : Nat × α → Bool) (h : tabSorted t = true) : tabSorted (t.filter p) = true := by
  induction t with
  | nil => simp [tabSorted]
  | cons e t ih =>
    obtain ⟨k', v'⟩ := e
    have h' := tabSorted_cons.mp h
    simp only [List.filter_cons]
    split
    · rw [tabSorted_cons]
      refine ⟨?_, ih h'.2⟩
      intro e he
      exact tabSorted_all h e (List.mem_filter.mp (List.mem_of_mem_head? he)).1
    · exact ih h'.2

theorem tabSorted_del (t : Table α) (k : Nat) (h : tabSorted t = true) : tabSorted (tabDel t k) = true :=
  tabSorted_filter _ _ h

theorem tabPut_mem {t : Table α} {k : Nat} {v : α} {e : Nat × α} (h : e ∈ tabPut t k v) : e = (k, v) ∨ e ∈ t := by
  induction t with
  | nil => simpa [tabPut] using h
  | cons a t ih =>
    obtain ⟨k', v'⟩ := a
    simp only [tabPut] at h
    split at h
    · simpa using h
    · split at h
      · rcases List.mem_cons.mp h with h | h
        · exact .inl h
        · exact .inr (List.mem_cons_of_mem _ h)
      · rcases List.mem_cons.mp h with h | h
        · exact .inr (by simp [h])
        · rcases ih h with h | h
          · exact .inl h
          · exact .inr (List.mem_cons_of_mem _ h)

theorem tabWf_nil [DecidableEq α] (d : α) : tabWf d ([] : Table α) = true := rfl

/-- Setting a content keeps the canonical form. -/
theorem tabWf_set [DecidableEq α] (d : α) (t : Table α) (k : Nat) (v : α) (h : tabWf d t = true) : tabWf d (tabSet d t k v) = true := by
  simp only [tabWf, Bool.and_eq_true, List.all_eq_true, bne_iff_ne, ne_eq] at h ⊢
  simp only [tabSet]
  split
  · exact ⟨tabSorted_del _ _ h.1, fun e he => h.2 e (List.mem_filter.mp he).1⟩
  · rename_i hv
    refine ⟨tabSorted_put _ _ _ h.1, fun e he => ?_⟩
    rcases tabPut_mem he with rfl | he
    · exact hv
    · exact h.2 e he

end Sys2Proof.Machine
end

