-- ==== Sys2Proof/Laws/State.lean ====
section
/-! SUPPORT. Sys2Proof/Laws/State.lean: the fields of the state, and of a group, after each of their updates. -/

namespace Sys2Proof.Machine

/-! ### The state -/

@[simp] theorem issued_agenda (s : State) : s.issued.agenda = s.agenda := rfl
@[simp] theorem issued_inputs (s : State) : s.issued.inputs = s.inputs := rfl
@[simp] theorem issued_turn (s : State) : s.issued.turn = s.turn := rfl
@[simp] theorem issued_issuing (s : State) : s.issued.issuing = s.issuing := rfl
@[simp] theorem issued_cur (s : State) : s.issued.cur = none := rfl
@[simp] theorem issued_freeCtr (s : State) : s.issued.freeCtr = s.freeCtr := rfl
@[simp] theorem issued_time (s : State) : s.issued.time = s.time := rfl
@[simp] theorem issued_ptime (s : State) : s.issued.ptime = s.ptime := rfl
@[simp] theorem issued_deviceTicks (s : State) : s.issued.deviceTicks = s.deviceTicks := rfl
@[simp] theorem issued_systemTicks (s : State) : s.issued.systemTicks = s.systemTicks := rfl
@[simp] theorem issued_clocks (s : State) : s.issued.clocks = s.clocks := rfl
@[simp] theorem issued_clockAcc (s : State) : s.issued.clockAcc = s.clockAcc := rfl
@[simp] theorem issued_moduleId (s : State) : s.issued.moduleId = s.moduleId := rfl
@[simp] theorem issued_cores (s : State) : s.issued.cores = s.cores := rfl
@[simp] theorem issued_ctxs (s : State) : s.issued.ctxs = s.ctxs := rfl
@[simp] theorem issued_launches (s : State) : s.issued.launches = s.launches := rfl
@[simp] theorem issued_nextLaunch (s : State) : s.issued.nextLaunch = s.nextLaunch := rfl
@[simp] theorem issued_queues (s : State) : s.issued.queues = s.queues := rfl
@[simp] theorem issued_placeCursor (s : State) : s.issued.placeCursor = s.placeCursor := rfl
@[simp] theorem issued_roots (s : State) : s.issued.roots = s.roots := rfl
@[simp] theorem issued_mem (s : State) : s.issued.mem = s.mem := rfl
@[simp] theorem issued_failed (s : State) : s.issued.failed = s.failed := rfl
@[simp] theorem issued_l2 (s : State) : s.issued.l2 = s.l2 := rfl
@[simp] theorem issued_l2Use (s : State) : s.issued.l2Use = s.l2Use := rfl
@[simp] theorem issued_dir (s : State) : s.issued.dir = s.dir := rfl
@[simp] theorem issued_mirrorDir (s : State) : s.issued.mirrorDir = s.mirrorDir := rfl
@[simp] theorem issued_engines (s : State) : s.issued.engines = s.engines := rfl
@[simp] theorem issued_lower (s : State) : s.issued.lower = s.lower := rfl
@[simp] theorem issued_upper (s : State) : s.issued.upper = s.upper := rfl
@[simp] theorem issued_nextTag (s : State) : s.issued.nextTag = s.nextTag := rfl
@[simp] theorem issued_outbox (s : State) : s.issued.outbox = s.outbox := rfl
@[simp] theorem issued_routers (s : State) : s.issued.routers = s.routers := rfl
@[simp] theorem issued_delivered (s : State) : s.issued.delivered = s.delivered := rfl
@[simp] theorem issued_spmap (s : State) : s.issued.spmap = s.spmap := rfl
@[simp] theorem issued_stopped (s : State) : s.issued.stopped = s.stopped := rfl
@[simp] theorem issued_quiet (s : State) : s.issued.quiet = s.quiet := rfl
@[simp] theorem issued_windows (s : State) : s.issued.windows = s.windows := rfl
@[simp] theorem issued_fto (s : State) : s.issued.fto = s.fto := rfl
@[simp] theorem issued_chains (s : State) : s.issued.chains = s.chains := rfl
@[simp] theorem issued_nextStep (s : State) : s.issued.nextStep = s.nextStep := rfl
@[simp] theorem issued_stepInbox (s : State) : s.issued.stepInbox = s.stepInbox := rfl
@[simp] theorem issued_xlats (s : State) : s.issued.xlats = s.xlats := rfl
@[simp] theorem issued_oldPages (s : State) : s.issued.oldPages = s.oldPages := rfl
@[simp] theorem issued_tseq (s : State) : s.issued.tseq = s.tseq := rfl
@[simp] theorem issued_tdone (s : State) : s.issued.tdone = s.tdone := rfl
@[simp] theorem issued_tseqMark (s : State) : s.issued.tseqMark = s.tseqMark := rfl
@[simp] theorem issued_resume (s : State) : s.issued.resume = s.resume := rfl
@[simp] theorem issued_migs (s : State) : s.issued.migs = s.migs := rfl
@[simp] theorem issued_carves (s : State) : s.issued.carves = s.carves := rfl
@[simp] theorem issued_regions (s : State) : s.issued.regions = s.regions := rfl
@[simp] theorem issued_qps (s : State) : s.issued.qps = s.qps := rfl
@[simp] theorem issued_netOut (s : State) : s.issued.netOut = s.netOut := rfl
@[simp] theorem issued_hostFrames (s : State) : s.issued.hostFrames = s.hostFrames := rfl
@[simp] theorem issued_ethernet (s : State) : s.issued.ethernet = s.ethernet := rfl
@[simp] theorem issued_hostLinks (s : State) : s.issued.hostLinks = s.hostLinks := rfl
@[simp] theorem issued_cosMasks (s : State) : s.issued.cosMasks = s.cosMasks := rfl
@[simp] theorem issued_hostCos (s : State) : s.issued.hostCos = s.hostCos := rfl
@[simp] theorem issued_hostData (s : State) : s.issued.hostData = s.hostData := rfl
@[simp] theorem issued_live (s : State) : s.issued.live = s.live := rfl
@[simp] theorem issued_mepoch (s : State) : s.issued.mepoch = s.mepoch := rfl
@[simp] theorem issued_errLog (s : State) : s.issued.errLog = s.errLog := rfl
@[simp] theorem issued_errLogCtx (s : State) : s.issued.errLogCtx = s.errLogCtx := rfl
@[simp] theorem issued_modLog (s : State) : s.issued.modLog = s.modLog := rfl
@[simp] theorem issued_retired (s : State) : s.issued.retired = s.retired := rfl
@[simp] theorem issued_corrected (s : State) : s.issued.corrected = s.corrected := rfl
@[simp] theorem issued_gangSlots (s : State) : s.issued.gangSlots = s.gangSlots := rfl
@[simp] theorem issued_gangHead (s : State) : s.issued.gangHead = s.gangHead := rfl
@[simp] theorem issued_gangTail (s : State) : s.issued.gangTail = s.gangTail := rfl
@[simp] theorem issued_gang (s : State) : s.issued.gang = s.gang := rfl
@[simp] theorem issued_bootStatus (s : State) : s.issued.bootStatus = s.bootStatus := rfl
@[simp] theorem issued_slots (s : State) : s.issued.slots = s.slots := rfl
@[simp] theorem issued_reports (s : State) : s.issued.reports = s.reports := rfl
@[simp] theorem issued_islands (s : State) : s.issued.islands = s.islands := rfl
@[simp] theorem issued_pcap (s : State) : s.issued.pcap = s.pcap := rfl

@[simp] theorem setCore_agenda (s : State) (c : Nat) (x : Core) : (s.setCore c x).agenda = s.agenda := rfl
@[simp] theorem setCore_inputs (s : State) (c : Nat) (x : Core) : (s.setCore c x).inputs = s.inputs := rfl
@[simp] theorem setCore_turn (s : State) (c : Nat) (x : Core) : (s.setCore c x).turn = s.turn := rfl
@[simp] theorem setCore_issuing (s : State) (c : Nat) (x : Core) : (s.setCore c x).issuing = s.issuing := rfl
@[simp] theorem setCore_cur (s : State) (c : Nat) (x : Core) : (s.setCore c x).cur = s.cur := rfl
@[simp] theorem setCore_freeCtr (s : State) (c : Nat) (x : Core) : (s.setCore c x).freeCtr = s.freeCtr := rfl
@[simp] theorem setCore_time (s : State) (c : Nat) (x : Core) : (s.setCore c x).time = s.time := rfl
@[simp] theorem setCore_ptime (s : State) (c : Nat) (x : Core) : (s.setCore c x).ptime = s.ptime := rfl
@[simp] theorem setCore_deviceTicks (s : State) (c : Nat) (x : Core) : (s.setCore c x).deviceTicks = s.deviceTicks := rfl
@[simp] theorem setCore_systemTicks (s : State) (c : Nat) (x : Core) : (s.setCore c x).systemTicks = s.systemTicks := rfl
@[simp] theorem setCore_clocks (s : State) (c : Nat) (x : Core) : (s.setCore c x).clocks = s.clocks := rfl
@[simp] theorem setCore_clockAcc (s : State) (c : Nat) (x : Core) : (s.setCore c x).clockAcc = s.clockAcc := rfl
@[simp] theorem setCore_moduleId (s : State) (c : Nat) (x : Core) : (s.setCore c x).moduleId = s.moduleId := rfl
@[simp] theorem setCore_cores (s : State) (c : Nat) (x : Core) : (s.setCore c x).cores = tabSet Core.idle s.cores c x := rfl
@[simp] theorem setCore_ctxs (s : State) (c : Nat) (x : Core) : (s.setCore c x).ctxs = s.ctxs := rfl
@[simp] theorem setCore_launches (s : State) (c : Nat) (x : Core) : (s.setCore c x).launches = s.launches := rfl
@[simp] theorem setCore_nextLaunch (s : State) (c : Nat) (x : Core) : (s.setCore c x).nextLaunch = s.nextLaunch := rfl
@[simp] theorem setCore_queues (s : State) (c : Nat) (x : Core) : (s.setCore c x).queues = s.queues := rfl
@[simp] theorem setCore_placeCursor (s : State) (c : Nat) (x : Core) : (s.setCore c x).placeCursor = s.placeCursor := rfl
@[simp] theorem setCore_roots (s : State) (c : Nat) (x : Core) : (s.setCore c x).roots = s.roots := rfl
@[simp] theorem setCore_mem (s : State) (c : Nat) (x : Core) : (s.setCore c x).mem = s.mem := rfl
@[simp] theorem setCore_failed (s : State) (c : Nat) (x : Core) : (s.setCore c x).failed = s.failed := rfl
@[simp] theorem setCore_l2 (s : State) (c : Nat) (x : Core) : (s.setCore c x).l2 = s.l2 := rfl
@[simp] theorem setCore_l2Use (s : State) (c : Nat) (x : Core) : (s.setCore c x).l2Use = s.l2Use := rfl
@[simp] theorem setCore_dir (s : State) (c : Nat) (x : Core) : (s.setCore c x).dir = s.dir := rfl
@[simp] theorem setCore_mirrorDir (s : State) (c : Nat) (x : Core) : (s.setCore c x).mirrorDir = s.mirrorDir := rfl
@[simp] theorem setCore_engines (s : State) (c : Nat) (x : Core) : (s.setCore c x).engines = s.engines := rfl
@[simp] theorem setCore_lower (s : State) (c : Nat) (x : Core) : (s.setCore c x).lower = s.lower := rfl
@[simp] theorem setCore_upper (s : State) (c : Nat) (x : Core) : (s.setCore c x).upper = s.upper := rfl
@[simp] theorem setCore_nextTag (s : State) (c : Nat) (x : Core) : (s.setCore c x).nextTag = s.nextTag := rfl
@[simp] theorem setCore_outbox (s : State) (c : Nat) (x : Core) : (s.setCore c x).outbox = s.outbox := rfl
@[simp] theorem setCore_routers (s : State) (c : Nat) (x : Core) : (s.setCore c x).routers = s.routers := rfl
@[simp] theorem setCore_delivered (s : State) (c : Nat) (x : Core) : (s.setCore c x).delivered = s.delivered := rfl
@[simp] theorem setCore_spmap (s : State) (c : Nat) (x : Core) : (s.setCore c x).spmap = s.spmap := rfl
@[simp] theorem setCore_stopped (s : State) (c : Nat) (x : Core) : (s.setCore c x).stopped = s.stopped := rfl
@[simp] theorem setCore_quiet (s : State) (c : Nat) (x : Core) : (s.setCore c x).quiet = s.quiet := rfl
@[simp] theorem setCore_windows (s : State) (c : Nat) (x : Core) : (s.setCore c x).windows = s.windows := rfl
@[simp] theorem setCore_fto (s : State) (c : Nat) (x : Core) : (s.setCore c x).fto = s.fto := rfl
@[simp] theorem setCore_chains (s : State) (c : Nat) (x : Core) : (s.setCore c x).chains = s.chains := rfl
@[simp] theorem setCore_nextStep (s : State) (c : Nat) (x : Core) : (s.setCore c x).nextStep = s.nextStep := rfl
@[simp] theorem setCore_stepInbox (s : State) (c : Nat) (x : Core) : (s.setCore c x).stepInbox = s.stepInbox := rfl
@[simp] theorem setCore_xlats (s : State) (c : Nat) (x : Core) : (s.setCore c x).xlats = s.xlats := rfl
@[simp] theorem setCore_oldPages (s : State) (c : Nat) (x : Core) : (s.setCore c x).oldPages = s.oldPages := rfl
@[simp] theorem setCore_tseq (s : State) (c : Nat) (x : Core) : (s.setCore c x).tseq = s.tseq := rfl
@[simp] theorem setCore_tdone (s : State) (c : Nat) (x : Core) : (s.setCore c x).tdone = s.tdone := rfl
@[simp] theorem setCore_tseqMark (s : State) (c : Nat) (x : Core) : (s.setCore c x).tseqMark = s.tseqMark := rfl
@[simp] theorem setCore_resume (s : State) (c : Nat) (x : Core) : (s.setCore c x).resume = s.resume := rfl
@[simp] theorem setCore_migs (s : State) (c : Nat) (x : Core) : (s.setCore c x).migs = s.migs := rfl
@[simp] theorem setCore_carves (s : State) (c : Nat) (x : Core) : (s.setCore c x).carves = s.carves := rfl
@[simp] theorem setCore_regions (s : State) (c : Nat) (x : Core) : (s.setCore c x).regions = s.regions := rfl
@[simp] theorem setCore_qps (s : State) (c : Nat) (x : Core) : (s.setCore c x).qps = s.qps := rfl
@[simp] theorem setCore_netOut (s : State) (c : Nat) (x : Core) : (s.setCore c x).netOut = s.netOut := rfl
@[simp] theorem setCore_hostFrames (s : State) (c : Nat) (x : Core) : (s.setCore c x).hostFrames = s.hostFrames := rfl
@[simp] theorem setCore_ethernet (s : State) (c : Nat) (x : Core) : (s.setCore c x).ethernet = s.ethernet := rfl
@[simp] theorem setCore_hostLinks (s : State) (c : Nat) (x : Core) : (s.setCore c x).hostLinks = s.hostLinks := rfl
@[simp] theorem setCore_cosMasks (s : State) (c : Nat) (x : Core) : (s.setCore c x).cosMasks = s.cosMasks := rfl
@[simp] theorem setCore_hostCos (s : State) (c : Nat) (x : Core) : (s.setCore c x).hostCos = s.hostCos := rfl
@[simp] theorem setCore_hostData (s : State) (c : Nat) (x : Core) : (s.setCore c x).hostData = s.hostData := rfl
@[simp] theorem setCore_live (s : State) (c : Nat) (x : Core) : (s.setCore c x).live = s.live := rfl
@[simp] theorem setCore_mepoch (s : State) (c : Nat) (x : Core) : (s.setCore c x).mepoch = s.mepoch := rfl
@[simp] theorem setCore_errLog (s : State) (c : Nat) (x : Core) : (s.setCore c x).errLog = s.errLog := rfl
@[simp] theorem setCore_errLogCtx (s : State) (c : Nat) (x : Core) : (s.setCore c x).errLogCtx = s.errLogCtx := rfl
@[simp] theorem setCore_modLog (s : State) (c : Nat) (x : Core) : (s.setCore c x).modLog = s.modLog := rfl
@[simp] theorem setCore_retired (s : State) (c : Nat) (x : Core) : (s.setCore c x).retired = s.retired := rfl
@[simp] theorem setCore_corrected (s : State) (c : Nat) (x : Core) : (s.setCore c x).corrected = s.corrected := rfl
@[simp] theorem setCore_gangSlots (s : State) (c : Nat) (x : Core) : (s.setCore c x).gangSlots = s.gangSlots := rfl
@[simp] theorem setCore_gangHead (s : State) (c : Nat) (x : Core) : (s.setCore c x).gangHead = s.gangHead := rfl
@[simp] theorem setCore_gangTail (s : State) (c : Nat) (x : Core) : (s.setCore c x).gangTail = s.gangTail := rfl
@[simp] theorem setCore_gang (s : State) (c : Nat) (x : Core) : (s.setCore c x).gang = s.gang := rfl
@[simp] theorem setCore_bootStatus (s : State) (c : Nat) (x : Core) : (s.setCore c x).bootStatus = s.bootStatus := rfl
@[simp] theorem setCore_slots (s : State) (c : Nat) (x : Core) : (s.setCore c x).slots = s.slots := rfl
@[simp] theorem setCore_reports (s : State) (c : Nat) (x : Core) : (s.setCore c x).reports = s.reports := rfl
@[simp] theorem setCore_islands (s : State) (c : Nat) (x : Core) : (s.setCore c x).islands = s.islands := rfl
@[simp] theorem setCore_pcap (s : State) (c : Nat) (x : Core) : (s.setCore c x).pcap = s.pcap := rfl

@[simp] theorem setCtx_agenda (s : State) (x : Nat) (c : Context) : (s.setCtx x c).agenda = s.agenda := rfl
@[simp] theorem setCtx_inputs (s : State) (x : Nat) (c : Context) : (s.setCtx x c).inputs = s.inputs := rfl
@[simp] theorem setCtx_turn (s : State) (x : Nat) (c : Context) : (s.setCtx x c).turn = s.turn := rfl
@[simp] theorem setCtx_issuing (s : State) (x : Nat) (c : Context) : (s.setCtx x c).issuing = s.issuing := rfl
@[simp] theorem setCtx_cur (s : State) (x : Nat) (c : Context) : (s.setCtx x c).cur = s.cur := rfl
@[simp] theorem setCtx_freeCtr (s : State) (x : Nat) (c : Context) : (s.setCtx x c).freeCtr = s.freeCtr := rfl
@[simp] theorem setCtx_time (s : State) (x : Nat) (c : Context) : (s.setCtx x c).time = s.time := rfl
@[simp] theorem setCtx_ptime (s : State) (x : Nat) (c : Context) : (s.setCtx x c).ptime = s.ptime := rfl
@[simp] theorem setCtx_deviceTicks (s : State) (x : Nat) (c : Context) : (s.setCtx x c).deviceTicks = s.deviceTicks := rfl
@[simp] theorem setCtx_systemTicks (s : State) (x : Nat) (c : Context) : (s.setCtx x c).systemTicks = s.systemTicks := rfl
@[simp] theorem setCtx_clocks (s : State) (x : Nat) (c : Context) : (s.setCtx x c).clocks = s.clocks := rfl
@[simp] theorem setCtx_clockAcc (s : State) (x : Nat) (c : Context) : (s.setCtx x c).clockAcc = s.clockAcc := rfl
@[simp] theorem setCtx_moduleId (s : State) (x : Nat) (c : Context) : (s.setCtx x c).moduleId = s.moduleId := rfl
@[simp] theorem setCtx_cores (s : State) (x : Nat) (c : Context) : (s.setCtx x c).cores = s.cores := rfl
@[simp] theorem setCtx_ctxs (s : State) (x : Nat) (c : Context) : (s.setCtx x c).ctxs = tabSet Context.reset s.ctxs x c := rfl
@[simp] theorem setCtx_launches (s : State) (x : Nat) (c : Context) : (s.setCtx x c).launches = s.launches := rfl
@[simp] theorem setCtx_nextLaunch (s : State) (x : Nat) (c : Context) : (s.setCtx x c).nextLaunch = s.nextLaunch := rfl
@[simp] theorem setCtx_queues (s : State) (x : Nat) (c : Context) : (s.setCtx x c).queues = s.queues := rfl
@[simp] theorem setCtx_placeCursor (s : State) (x : Nat) (c : Context) : (s.setCtx x c).placeCursor = s.placeCursor := rfl
@[simp] theorem setCtx_roots (s : State) (x : Nat) (c : Context) : (s.setCtx x c).roots = s.roots := rfl
@[simp] theorem setCtx_mem (s : State) (x : Nat) (c : Context) : (s.setCtx x c).mem = s.mem := rfl
@[simp] theorem setCtx_failed (s : State) (x : Nat) (c : Context) : (s.setCtx x c).failed = s.failed := rfl
@[simp] theorem setCtx_l2 (s : State) (x : Nat) (c : Context) : (s.setCtx x c).l2 = s.l2 := rfl
@[simp] theorem setCtx_l2Use (s : State) (x : Nat) (c : Context) : (s.setCtx x c).l2Use = s.l2Use := rfl
@[simp] theorem setCtx_dir (s : State) (x : Nat) (c : Context) : (s.setCtx x c).dir = s.dir := rfl
@[simp] theorem setCtx_mirrorDir (s : State) (x : Nat) (c : Context) : (s.setCtx x c).mirrorDir = s.mirrorDir := rfl
@[simp] theorem setCtx_engines (s : State) (x : Nat) (c : Context) : (s.setCtx x c).engines = s.engines := rfl
@[simp] theorem setCtx_lower (s : State) (x : Nat) (c : Context) : (s.setCtx x c).lower = s.lower := rfl
@[simp] theorem setCtx_upper (s : State) (x : Nat) (c : Context) : (s.setCtx x c).upper = s.upper := rfl
@[simp] theorem setCtx_nextTag (s : State) (x : Nat) (c : Context) : (s.setCtx x c).nextTag = s.nextTag := rfl
@[simp] theorem setCtx_outbox (s : State) (x : Nat) (c : Context) : (s.setCtx x c).outbox = s.outbox := rfl
@[simp] theorem setCtx_routers (s : State) (x : Nat) (c : Context) : (s.setCtx x c).routers = s.routers := rfl
@[simp] theorem setCtx_delivered (s : State) (x : Nat) (c : Context) : (s.setCtx x c).delivered = s.delivered := rfl
@[simp] theorem setCtx_spmap (s : State) (x : Nat) (c : Context) : (s.setCtx x c).spmap = s.spmap := rfl
@[simp] theorem setCtx_stopped (s : State) (x : Nat) (c : Context) : (s.setCtx x c).stopped = s.stopped := rfl
@[simp] theorem setCtx_quiet (s : State) (x : Nat) (c : Context) : (s.setCtx x c).quiet = s.quiet := rfl
@[simp] theorem setCtx_windows (s : State) (x : Nat) (c : Context) : (s.setCtx x c).windows = s.windows := rfl
@[simp] theorem setCtx_fto (s : State) (x : Nat) (c : Context) : (s.setCtx x c).fto = s.fto := rfl
@[simp] theorem setCtx_chains (s : State) (x : Nat) (c : Context) : (s.setCtx x c).chains = s.chains := rfl
@[simp] theorem setCtx_nextStep (s : State) (x : Nat) (c : Context) : (s.setCtx x c).nextStep = s.nextStep := rfl
@[simp] theorem setCtx_stepInbox (s : State) (x : Nat) (c : Context) : (s.setCtx x c).stepInbox = s.stepInbox := rfl
@[simp] theorem setCtx_xlats (s : State) (x : Nat) (c : Context) : (s.setCtx x c).xlats = s.xlats := rfl
@[simp] theorem setCtx_oldPages (s : State) (x : Nat) (c : Context) : (s.setCtx x c).oldPages = s.oldPages := rfl
@[simp] theorem setCtx_tseq (s : State) (x : Nat) (c : Context) : (s.setCtx x c).tseq = s.tseq := rfl
@[simp] theorem setCtx_tdone (s : State) (x : Nat) (c : Context) : (s.setCtx x c).tdone = s.tdone := rfl
@[simp] theorem setCtx_tseqMark (s : State) (x : Nat) (c : Context) : (s.setCtx x c).tseqMark = s.tseqMark := rfl
@[simp] theorem setCtx_resume (s : State) (x : Nat) (c : Context) : (s.setCtx x c).resume = s.resume := rfl
@[simp] theorem setCtx_migs (s : State) (x : Nat) (c : Context) : (s.setCtx x c).migs = s.migs := rfl
@[simp] theorem setCtx_carves (s : State) (x : Nat) (c : Context) : (s.setCtx x c).carves = s.carves := rfl
@[simp] theorem setCtx_regions (s : State) (x : Nat) (c : Context) : (s.setCtx x c).regions = s.regions := rfl
@[simp] theorem setCtx_qps (s : State) (x : Nat) (c : Context) : (s.setCtx x c).qps = s.qps := rfl
@[simp] theorem setCtx_netOut (s : State) (x : Nat) (c : Context) : (s.setCtx x c).netOut = s.netOut := rfl
@[simp] theorem setCtx_hostFrames (s : State) (x : Nat) (c : Context) : (s.setCtx x c).hostFrames = s.hostFrames := rfl
@[simp] theorem setCtx_ethernet (s : State) (x : Nat) (c : Context) : (s.setCtx x c).ethernet = s.ethernet := rfl
@[simp] theorem setCtx_hostLinks (s : State) (x : Nat) (c : Context) : (s.setCtx x c).hostLinks = s.hostLinks := rfl
@[simp] theorem setCtx_cosMasks (s : State) (x : Nat) (c : Context) : (s.setCtx x c).cosMasks = s.cosMasks := rfl
@[simp] theorem setCtx_hostCos (s : State) (x : Nat) (c : Context) : (s.setCtx x c).hostCos = s.hostCos := rfl
@[simp] theorem setCtx_hostData (s : State) (x : Nat) (c : Context) : (s.setCtx x c).hostData = s.hostData := rfl
@[simp] theorem setCtx_live (s : State) (x : Nat) (c : Context) : (s.setCtx x c).live = s.live := rfl
@[simp] theorem setCtx_mepoch (s : State) (x : Nat) (c : Context) : (s.setCtx x c).mepoch = s.mepoch := rfl
@[simp] theorem setCtx_errLog (s : State) (x : Nat) (c : Context) : (s.setCtx x c).errLog = s.errLog := rfl
@[simp] theorem setCtx_errLogCtx (s : State) (x : Nat) (c : Context) : (s.setCtx x c).errLogCtx = s.errLogCtx := rfl
@[simp] theorem setCtx_modLog (s : State) (x : Nat) (c : Context) : (s.setCtx x c).modLog = s.modLog := rfl
@[simp] theorem setCtx_retired (s : State) (x : Nat) (c : Context) : (s.setCtx x c).retired = s.retired := rfl
@[simp] theorem setCtx_corrected (s : State) (x : Nat) (c : Context) : (s.setCtx x c).corrected = s.corrected := rfl
@[simp] theorem setCtx_gangSlots (s : State) (x : Nat) (c : Context) : (s.setCtx x c).gangSlots = s.gangSlots := rfl
@[simp] theorem setCtx_gangHead (s : State) (x : Nat) (c : Context) : (s.setCtx x c).gangHead = s.gangHead := rfl
@[simp] theorem setCtx_gangTail (s : State) (x : Nat) (c : Context) : (s.setCtx x c).gangTail = s.gangTail := rfl
@[simp] theorem setCtx_gang (s : State) (x : Nat) (c : Context) : (s.setCtx x c).gang = s.gang := rfl
@[simp] theorem setCtx_bootStatus (s : State) (x : Nat) (c : Context) : (s.setCtx x c).bootStatus = s.bootStatus := rfl
@[simp] theorem setCtx_slots (s : State) (x : Nat) (c : Context) : (s.setCtx x c).slots = s.slots := rfl
@[simp] theorem setCtx_reports (s : State) (x : Nat) (c : Context) : (s.setCtx x c).reports = s.reports := rfl
@[simp] theorem setCtx_islands (s : State) (x : Nat) (c : Context) : (s.setCtx x c).islands = s.islands := rfl
@[simp] theorem setCtx_pcap (s : State) (x : Nat) (c : Context) : (s.setCtx x c).pcap = s.pcap := rfl

@[simp] theorem push_agenda (s : State) (e : Instr) : (s.push e).agenda = e :: s.agenda := rfl
@[simp] theorem push_inputs (s : State) (e : Instr) : (s.push e).inputs = s.inputs := rfl
@[simp] theorem push_turn (s : State) (e : Instr) : (s.push e).turn = s.turn := rfl
@[simp] theorem push_issuing (s : State) (e : Instr) : (s.push e).issuing = s.issuing := rfl
@[simp] theorem push_cur (s : State) (e : Instr) : (s.push e).cur = s.cur := rfl
@[simp] theorem push_freeCtr (s : State) (e : Instr) : (s.push e).freeCtr = s.freeCtr := rfl
@[simp] theorem push_time (s : State) (e : Instr) : (s.push e).time = s.time := rfl
@[simp] theorem push_ptime (s : State) (e : Instr) : (s.push e).ptime = s.ptime := rfl
@[simp] theorem push_deviceTicks (s : State) (e : Instr) : (s.push e).deviceTicks = s.deviceTicks := rfl
@[simp] theorem push_systemTicks (s : State) (e : Instr) : (s.push e).systemTicks = s.systemTicks := rfl
@[simp] theorem push_clocks (s : State) (e : Instr) : (s.push e).clocks = s.clocks := rfl
@[simp] theorem push_clockAcc (s : State) (e : Instr) : (s.push e).clockAcc = s.clockAcc := rfl
@[simp] theorem push_moduleId (s : State) (e : Instr) : (s.push e).moduleId = s.moduleId := rfl
@[simp] theorem push_cores (s : State) (e : Instr) : (s.push e).cores = s.cores := rfl
@[simp] theorem push_ctxs (s : State) (e : Instr) : (s.push e).ctxs = s.ctxs := rfl
@[simp] theorem push_launches (s : State) (e : Instr) : (s.push e).launches = s.launches := rfl
@[simp] theorem push_nextLaunch (s : State) (e : Instr) : (s.push e).nextLaunch = s.nextLaunch := rfl
@[simp] theorem push_queues (s : State) (e : Instr) : (s.push e).queues = s.queues := rfl
@[simp] theorem push_placeCursor (s : State) (e : Instr) : (s.push e).placeCursor = s.placeCursor := rfl
@[simp] theorem push_roots (s : State) (e : Instr) : (s.push e).roots = s.roots := rfl
@[simp] theorem push_mem (s : State) (e : Instr) : (s.push e).mem = s.mem := rfl
@[simp] theorem push_failed (s : State) (e : Instr) : (s.push e).failed = s.failed := rfl
@[simp] theorem push_l2 (s : State) (e : Instr) : (s.push e).l2 = s.l2 := rfl
@[simp] theorem push_l2Use (s : State) (e : Instr) : (s.push e).l2Use = s.l2Use := rfl
@[simp] theorem push_dir (s : State) (e : Instr) : (s.push e).dir = s.dir := rfl
@[simp] theorem push_mirrorDir (s : State) (e : Instr) : (s.push e).mirrorDir = s.mirrorDir := rfl
@[simp] theorem push_engines (s : State) (e : Instr) : (s.push e).engines = s.engines := rfl
@[simp] theorem push_lower (s : State) (e : Instr) : (s.push e).lower = s.lower := rfl
@[simp] theorem push_upper (s : State) (e : Instr) : (s.push e).upper = s.upper := rfl
@[simp] theorem push_nextTag (s : State) (e : Instr) : (s.push e).nextTag = s.nextTag := rfl
@[simp] theorem push_outbox (s : State) (e : Instr) : (s.push e).outbox = s.outbox := rfl
@[simp] theorem push_routers (s : State) (e : Instr) : (s.push e).routers = s.routers := rfl
@[simp] theorem push_delivered (s : State) (e : Instr) : (s.push e).delivered = s.delivered := rfl
@[simp] theorem push_spmap (s : State) (e : Instr) : (s.push e).spmap = s.spmap := rfl
@[simp] theorem push_stopped (s : State) (e : Instr) : (s.push e).stopped = s.stopped := rfl
@[simp] theorem push_quiet (s : State) (e : Instr) : (s.push e).quiet = s.quiet := rfl
@[simp] theorem push_windows (s : State) (e : Instr) : (s.push e).windows = s.windows := rfl
@[simp] theorem push_fto (s : State) (e : Instr) : (s.push e).fto = s.fto := rfl
@[simp] theorem push_chains (s : State) (e : Instr) : (s.push e).chains = s.chains := rfl
@[simp] theorem push_nextStep (s : State) (e : Instr) : (s.push e).nextStep = s.nextStep := rfl
@[simp] theorem push_stepInbox (s : State) (e : Instr) : (s.push e).stepInbox = s.stepInbox := rfl
@[simp] theorem push_xlats (s : State) (e : Instr) : (s.push e).xlats = s.xlats := rfl
@[simp] theorem push_oldPages (s : State) (e : Instr) : (s.push e).oldPages = s.oldPages := rfl
@[simp] theorem push_tseq (s : State) (e : Instr) : (s.push e).tseq = s.tseq := rfl
@[simp] theorem push_tdone (s : State) (e : Instr) : (s.push e).tdone = s.tdone := rfl
@[simp] theorem push_tseqMark (s : State) (e : Instr) : (s.push e).tseqMark = s.tseqMark := rfl
@[simp] theorem push_resume (s : State) (e : Instr) : (s.push e).resume = s.resume := rfl
@[simp] theorem push_migs (s : State) (e : Instr) : (s.push e).migs = s.migs := rfl
@[simp] theorem push_carves (s : State) (e : Instr) : (s.push e).carves = s.carves := rfl
@[simp] theorem push_regions (s : State) (e : Instr) : (s.push e).regions = s.regions := rfl
@[simp] theorem push_qps (s : State) (e : Instr) : (s.push e).qps = s.qps := rfl
@[simp] theorem push_netOut (s : State) (e : Instr) : (s.push e).netOut = s.netOut := rfl
@[simp] theorem push_hostFrames (s : State) (e : Instr) : (s.push e).hostFrames = s.hostFrames := rfl
@[simp] theorem push_ethernet (s : State) (e : Instr) : (s.push e).ethernet = s.ethernet := rfl
@[simp] theorem push_hostLinks (s : State) (e : Instr) : (s.push e).hostLinks = s.hostLinks := rfl
@[simp] theorem push_cosMasks (s : State) (e : Instr) : (s.push e).cosMasks = s.cosMasks := rfl
@[simp] theorem push_hostCos (s : State) (e : Instr) : (s.push e).hostCos = s.hostCos := rfl
@[simp] theorem push_hostData (s : State) (e : Instr) : (s.push e).hostData = s.hostData := rfl
@[simp] theorem push_live (s : State) (e : Instr) : (s.push e).live = s.live := rfl
@[simp] theorem push_mepoch (s : State) (e : Instr) : (s.push e).mepoch = s.mepoch := rfl
@[simp] theorem push_errLog (s : State) (e : Instr) : (s.push e).errLog = s.errLog := rfl
@[simp] theorem push_errLogCtx (s : State) (e : Instr) : (s.push e).errLogCtx = s.errLogCtx := rfl
@[simp] theorem push_modLog (s : State) (e : Instr) : (s.push e).modLog = s.modLog := rfl
@[simp] theorem push_retired (s : State) (e : Instr) : (s.push e).retired = s.retired := rfl
@[simp] theorem push_corrected (s : State) (e : Instr) : (s.push e).corrected = s.corrected := rfl
@[simp] theorem push_gangSlots (s : State) (e : Instr) : (s.push e).gangSlots = s.gangSlots := rfl
@[simp] theorem push_gangHead (s : State) (e : Instr) : (s.push e).gangHead = s.gangHead := rfl
@[simp] theorem push_gangTail (s : State) (e : Instr) : (s.push e).gangTail = s.gangTail := rfl
@[simp] theorem push_gang (s : State) (e : Instr) : (s.push e).gang = s.gang := rfl
@[simp] theorem push_bootStatus (s : State) (e : Instr) : (s.push e).bootStatus = s.bootStatus := rfl
@[simp] theorem push_slots (s : State) (e : Instr) : (s.push e).slots = s.slots := rfl
@[simp] theorem push_reports (s : State) (e : Instr) : (s.push e).reports = s.reports := rfl
@[simp] theorem push_islands (s : State) (e : Instr) : (s.push e).islands = s.islands := rfl
@[simp] theorem push_pcap (s : State) (e : Instr) : (s.push e).pcap = s.pcap := rfl

@[simp] theorem enqueue_agenda (s : State) (es : List Instr) : (s.enqueue es).agenda = s.agenda ++ es := rfl
@[simp] theorem enqueue_inputs (s : State) (es : List Instr) : (s.enqueue es).inputs = s.inputs := rfl
@[simp] theorem enqueue_turn (s : State) (es : List Instr) : (s.enqueue es).turn = s.turn := rfl
@[simp] theorem enqueue_issuing (s : State) (es : List Instr) : (s.enqueue es).issuing = s.issuing := rfl
@[simp] theorem enqueue_cur (s : State) (es : List Instr) : (s.enqueue es).cur = s.cur := rfl
@[simp] theorem enqueue_freeCtr (s : State) (es : List Instr) : (s.enqueue es).freeCtr = s.freeCtr := rfl
@[simp] theorem enqueue_time (s : State) (es : List Instr) : (s.enqueue es).time = s.time := rfl
@[simp] theorem enqueue_ptime (s : State) (es : List Instr) : (s.enqueue es).ptime = s.ptime := rfl
@[simp] theorem enqueue_deviceTicks (s : State) (es : List Instr) : (s.enqueue es).deviceTicks = s.deviceTicks := rfl
@[simp] theorem enqueue_systemTicks (s : State) (es : List Instr) : (s.enqueue es).systemTicks = s.systemTicks := rfl
@[simp] theorem enqueue_clocks (s : State) (es : List Instr) : (s.enqueue es).clocks = s.clocks := rfl
@[simp] theorem enqueue_clockAcc (s : State) (es : List Instr) : (s.enqueue es).clockAcc = s.clockAcc := rfl
@[simp] theorem enqueue_moduleId (s : State) (es : List Instr) : (s.enqueue es).moduleId = s.moduleId := rfl
@[simp] theorem enqueue_cores (s : State) (es : List Instr) : (s.enqueue es).cores = s.cores := rfl
@[simp] theorem enqueue_ctxs (s : State) (es : List Instr) : (s.enqueue es).ctxs = s.ctxs := rfl
@[simp] theorem enqueue_launches (s : State) (es : List Instr) : (s.enqueue es).launches = s.launches := rfl
@[simp] theorem enqueue_nextLaunch (s : State) (es : List Instr) : (s.enqueue es).nextLaunch = s.nextLaunch := rfl
@[simp] theorem enqueue_queues (s : State) (es : List Instr) : (s.enqueue es).queues = s.queues := rfl
@[simp] theorem enqueue_placeCursor (s : State) (es : List Instr) : (s.enqueue es).placeCursor = s.placeCursor := rfl
@[simp] theorem enqueue_roots (s : State) (es : List Instr) : (s.enqueue es).roots = s.roots := rfl
@[simp] theorem enqueue_mem (s : State) (es : List Instr) : (s.enqueue es).mem = s.mem := rfl
@[simp] theorem enqueue_failed (s : State) (es : List Instr) : (s.enqueue es).failed = s.failed := rfl
@[simp] theorem enqueue_l2 (s : State) (es : List Instr) : (s.enqueue es).l2 = s.l2 := rfl
@[simp] theorem enqueue_l2Use (s : State) (es : List Instr) : (s.enqueue es).l2Use = s.l2Use := rfl
@[simp] theorem enqueue_dir (s : State) (es : List Instr) : (s.enqueue es).dir = s.dir := rfl
@[simp] theorem enqueue_mirrorDir (s : State) (es : List Instr) : (s.enqueue es).mirrorDir = s.mirrorDir := rfl
@[simp] theorem enqueue_engines (s : State) (es : List Instr) : (s.enqueue es).engines = s.engines := rfl
@[simp] theorem enqueue_lower (s : State) (es : List Instr) : (s.enqueue es).lower = s.lower := rfl
@[simp] theorem enqueue_upper (s : State) (es : List Instr) : (s.enqueue es).upper = s.upper := rfl
@[simp] theorem enqueue_nextTag (s : State) (es : List Instr) : (s.enqueue es).nextTag = s.nextTag := rfl
@[simp] theorem enqueue_outbox (s : State) (es : List Instr) : (s.enqueue es).outbox = s.outbox := rfl
@[simp] theorem enqueue_routers (s : State) (es : List Instr) : (s.enqueue es).routers = s.routers := rfl
@[simp] theorem enqueue_delivered (s : State) (es : List Instr) : (s.enqueue es).delivered = s.delivered := rfl
@[simp] theorem enqueue_spmap (s : State) (es : List Instr) : (s.enqueue es).spmap = s.spmap := rfl
@[simp] theorem enqueue_stopped (s : State) (es : List Instr) : (s.enqueue es).stopped = s.stopped := rfl
@[simp] theorem enqueue_quiet (s : State) (es : List Instr) : (s.enqueue es).quiet = s.quiet := rfl
@[simp] theorem enqueue_windows (s : State) (es : List Instr) : (s.enqueue es).windows = s.windows := rfl
@[simp] theorem enqueue_fto (s : State) (es : List Instr) : (s.enqueue es).fto = s.fto := rfl
@[simp] theorem enqueue_chains (s : State) (es : List Instr) : (s.enqueue es).chains = s.chains := rfl
@[simp] theorem enqueue_nextStep (s : State) (es : List Instr) : (s.enqueue es).nextStep = s.nextStep := rfl
@[simp] theorem enqueue_stepInbox (s : State) (es : List Instr) : (s.enqueue es).stepInbox = s.stepInbox := rfl
@[simp] theorem enqueue_xlats (s : State) (es : List Instr) : (s.enqueue es).xlats = s.xlats := rfl
@[simp] theorem enqueue_oldPages (s : State) (es : List Instr) : (s.enqueue es).oldPages = s.oldPages := rfl
@[simp] theorem enqueue_tseq (s : State) (es : List Instr) : (s.enqueue es).tseq = s.tseq := rfl
@[simp] theorem enqueue_tdone (s : State) (es : List Instr) : (s.enqueue es).tdone = s.tdone := rfl
@[simp] theorem enqueue_tseqMark (s : State) (es : List Instr) : (s.enqueue es).tseqMark = s.tseqMark := rfl
@[simp] theorem enqueue_resume (s : State) (es : List Instr) : (s.enqueue es).resume = s.resume := rfl
@[simp] theorem enqueue_migs (s : State) (es : List Instr) : (s.enqueue es).migs = s.migs := rfl
@[simp] theorem enqueue_carves (s : State) (es : List Instr) : (s.enqueue es).carves = s.carves := rfl
@[simp] theorem enqueue_regions (s : State) (es : List Instr) : (s.enqueue es).regions = s.regions := rfl
@[simp] theorem enqueue_qps (s : State) (es : List Instr) : (s.enqueue es).qps = s.qps := rfl
@[simp] theorem enqueue_netOut (s : State) (es : List Instr) : (s.enqueue es).netOut = s.netOut := rfl
@[simp] theorem enqueue_hostFrames (s : State) (es : List Instr) : (s.enqueue es).hostFrames = s.hostFrames := rfl
@[simp] theorem enqueue_ethernet (s : State) (es : List Instr) : (s.enqueue es).ethernet = s.ethernet := rfl
@[simp] theorem enqueue_hostLinks (s : State) (es : List Instr) : (s.enqueue es).hostLinks = s.hostLinks := rfl
@[simp] theorem enqueue_cosMasks (s : State) (es : List Instr) : (s.enqueue es).cosMasks = s.cosMasks := rfl
@[simp] theorem enqueue_hostCos (s : State) (es : List Instr) : (s.enqueue es).hostCos = s.hostCos := rfl
@[simp] theorem enqueue_hostData (s : State) (es : List Instr) : (s.enqueue es).hostData = s.hostData := rfl
@[simp] theorem enqueue_live (s : State) (es : List Instr) : (s.enqueue es).live = s.live := rfl
@[simp] theorem enqueue_mepoch (s : State) (es : List Instr) : (s.enqueue es).mepoch = s.mepoch := rfl
@[simp] theorem enqueue_errLog (s : State) (es : List Instr) : (s.enqueue es).errLog = s.errLog := rfl
@[simp] theorem enqueue_errLogCtx (s : State) (es : List Instr) : (s.enqueue es).errLogCtx = s.errLogCtx := rfl
@[simp] theorem enqueue_modLog (s : State) (es : List Instr) : (s.enqueue es).modLog = s.modLog := rfl
@[simp] theorem enqueue_retired (s : State) (es : List Instr) : (s.enqueue es).retired = s.retired := rfl
@[simp] theorem enqueue_corrected (s : State) (es : List Instr) : (s.enqueue es).corrected = s.corrected := rfl
@[simp] theorem enqueue_gangSlots (s : State) (es : List Instr) : (s.enqueue es).gangSlots = s.gangSlots := rfl
@[simp] theorem enqueue_gangHead (s : State) (es : List Instr) : (s.enqueue es).gangHead = s.gangHead := rfl
@[simp] theorem enqueue_gangTail (s : State) (es : List Instr) : (s.enqueue es).gangTail = s.gangTail := rfl
@[simp] theorem enqueue_gang (s : State) (es : List Instr) : (s.enqueue es).gang = s.gang := rfl
@[simp] theorem enqueue_bootStatus (s : State) (es : List Instr) : (s.enqueue es).bootStatus = s.bootStatus := rfl
@[simp] theorem enqueue_slots (s : State) (es : List Instr) : (s.enqueue es).slots = s.slots := rfl
@[simp] theorem enqueue_reports (s : State) (es : List Instr) : (s.enqueue es).reports = s.reports := rfl
@[simp] theorem enqueue_islands (s : State) (es : List Instr) : (s.enqueue es).islands = s.islands := rfl
@[simp] theorem enqueue_pcap (s : State) (es : List Instr) : (s.enqueue es).pcap = s.pcap := rfl

/-! ### A group -/

@[simp] theorem setVreg_ctx (g : Group) (r l : Nat) (x : Word32) : (g.setVreg r l x).ctx = g.ctx := rfl
@[simp] theorem setVreg_launch (g : Group) (r l : Nat) (x : Word32) : (g.setVreg r l x).launch = g.launch := rfl
@[simp] theorem setVreg_team (g : Group) (r l : Nat) (x : Word32) : (g.setVreg r l x).team = g.team := rfl
@[simp] theorem setVreg_index (g : Group) (r l : Nat) (x : Word32) : (g.setVreg r l x).index = g.index := rfl
@[simp] theorem setVreg_role (g : Group) (r l : Nat) (x : Word32) : (g.setVreg r l x).role = g.role := rfl
@[simp] theorem setVreg_part (g : Group) (r l : Nat) (x : Word32) : (g.setVreg r l x).part = g.part := rfl
@[simp] theorem setVreg_budget (g : Group) (r l : Nat) (x : Word32) : (g.setVreg r l x).budget = g.budget := rfl
@[simp] theorem setVreg_age (g : Group) (r l : Nat) (x : Word32) : (g.setVreg r l x).age = g.age := rfl
@[simp] theorem setVreg_v (g : Group) (r l : Nat) (x : Word32) : (g.setVreg r l x).v = tabSet 0 g.v (32 * r + l) x := rfl
@[simp] theorem setVreg_s (g : Group) (r l : Nat) (x : Word32) : (g.setVreg r l x).s = g.s := rfl
@[simp] theorem setVreg_p (g : Group) (r l : Nat) (x : Word32) : (g.setVreg r l x).p = g.p := rfl
@[simp] theorem setVreg_fe (g : Group) (r l : Nat) (x : Word32) : (g.setVreg r l x).fe = g.fe := rfl
@[simp] theorem setVreg_due (g : Group) (r l : Nat) (x : Word32) : (g.setVreg r l x).due = g.due := rfl
@[simp] theorem setVreg_recs (g : Group) (r l : Nat) (x : Word32) : (g.setVreg r l x).recs = g.recs := rfl
@[simp] theorem setVreg_trapWaits (g : Group) (r l : Nat) (x : Word32) : (g.setVreg r l x).trapWaits = g.trapWaits := rfl
@[simp] theorem setVreg_splits (g : Group) (r l : Nat) (x : Word32) : (g.setVreg r l x).splits = g.splits := rfl
@[simp] theorem setVreg_gens (g : Group) (r l : Nat) (x : Word32) : (g.setVreg r l x).gens = g.gens := rfl
@[simp] theorem setVreg_faultaddr (g : Group) (r l : Nat) (x : Word32) : (g.setVreg r l x).faultaddr = g.faultaddr := rfl
@[simp] theorem setVreg_faultcode (g : Group) (r l : Nat) (x : Word32) : (g.setVreg r l x).faultcode = g.faultcode := rfl
@[simp] theorem setVreg_mstat (g : Group) (r l : Nat) (x : Word32) : (g.setVreg r l x).mstat = g.mstat := rfl
@[simp] theorem setVreg_seed (g : Group) (r l : Nat) (x : Word32) : (g.setVreg r l x).seed = g.seed := rfl
@[simp] theorem setVreg_owes (g : Group) (r l : Nat) (x : Word32) : (g.setVreg r l x).owes = g.owes := rfl
@[simp] theorem setVreg_wait (g : Group) (r l : Nat) (x : Word32) : (g.setVreg r l x).wait = g.wait := rfl
@[simp] theorem setVreg_ended (g : Group) (r l : Nat) (x : Word32) : (g.setVreg r l x).ended = g.ended := rfl

@[simp] theorem setSreg_ctx (g : Group) (r : Nat) (x : Word64) : (g.setSreg r x).ctx = g.ctx := rfl
@[simp] theorem setSreg_launch (g : Group) (r : Nat) (x : Word64) : (g.setSreg r x).launch = g.launch := rfl
@[simp] theorem setSreg_team (g : Group) (r : Nat) (x : Word64) : (g.setSreg r x).team = g.team := rfl
@[simp] theorem setSreg_index (g : Group) (r : Nat) (x : Word64) : (g.setSreg r x).index = g.index := rfl
@[simp] theorem setSreg_role (g : Group) (r : Nat) (x : Word64) : (g.setSreg r x).role = g.role := rfl
@[simp] theorem setSreg_part (g : Group) (r : Nat) (x : Word64) : (g.setSreg r x).part = g.part := rfl
@[simp] theorem setSreg_budget (g : Group) (r : Nat) (x : Word64) : (g.setSreg r x).budget = g.budget := rfl
@[simp] theorem setSreg_age (g : Group) (r : Nat) (x : Word64) : (g.setSreg r x).age = g.age := rfl
@[simp] theorem setSreg_v (g : Group) (r : Nat) (x : Word64) : (g.setSreg r x).v = g.v := rfl
@[simp] theorem setSreg_s (g : Group) (r : Nat) (x : Word64) : (g.setSreg r x).s = tabSet 0 g.s r x := rfl
@[simp] theorem setSreg_p (g : Group) (r : Nat) (x : Word64) : (g.setSreg r x).p = g.p := rfl
@[simp] theorem setSreg_fe (g : Group) (r : Nat) (x : Word64) : (g.setSreg r x).fe = g.fe := rfl
@[simp] theorem setSreg_due (g : Group) (r : Nat) (x : Word64) : (g.setSreg r x).due = g.due := rfl
@[simp] theorem setSreg_recs (g : Group) (r : Nat) (x : Word64) : (g.setSreg r x).recs = g.recs := rfl
@[simp] theorem setSreg_trapWaits (g : Group) (r : Nat) (x : Word64) : (g.setSreg r x).trapWaits = g.trapWaits := rfl
@[simp] theorem setSreg_splits (g : Group) (r : Nat) (x : Word64) : (g.setSreg r x).splits = g.splits := rfl
@[simp] theorem setSreg_gens (g : Group) (r : Nat) (x : Word64) : (g.setSreg r x).gens = g.gens := rfl
@[simp] theorem setSreg_faultaddr (g : Group) (r : Nat) (x : Word64) : (g.setSreg r x).faultaddr = g.faultaddr := rfl
@[simp] theorem setSreg_faultcode (g : Group) (r : Nat) (x : Word64) : (g.setSreg r x).faultcode = g.faultcode := rfl
@[simp] theorem setSreg_mstat (g : Group) (r : Nat) (x : Word64) : (g.setSreg r x).mstat = g.mstat := rfl
@[simp] theorem setSreg_seed (g : Group) (r : Nat) (x : Word64) : (g.setSreg r x).seed = g.seed := rfl
@[simp] theorem setSreg_owes (g : Group) (r : Nat) (x : Word64) : (g.setSreg r x).owes = g.owes := rfl
@[simp] theorem setSreg_wait (g : Group) (r : Nat) (x : Word64) : (g.setSreg r x).wait = g.wait := rfl
@[simp] theorem setSreg_ended (g : Group) (r : Nat) (x : Word64) : (g.setSreg r x).ended = g.ended := rfl

@[simp] theorem setPrec_ctx (g : Group) (i : Nat) (q : PathRec) : (g.setPrec i q).ctx = g.ctx := rfl
@[simp] theorem setPrec_launch (g : Group) (i : Nat) (q : PathRec) : (g.setPrec i q).launch = g.launch := rfl
@[simp] theorem setPrec_team (g : Group) (i : Nat) (q : PathRec) : (g.setPrec i q).team = g.team := rfl
@[simp] theorem setPrec_index (g : Group) (i : Nat) (q : PathRec) : (g.setPrec i q).index = g.index := rfl
@[simp] theorem setPrec_role (g : Group) (i : Nat) (q : PathRec) : (g.setPrec i q).role = g.role := rfl
@[simp] theorem setPrec_part (g : Group) (i : Nat) (q : PathRec) : (g.setPrec i q).part = g.part := rfl
@[simp] theorem setPrec_budget (g : Group) (i : Nat) (q : PathRec) : (g.setPrec i q).budget = g.budget := rfl
@[simp] theorem setPrec_age (g : Group) (i : Nat) (q : PathRec) : (g.setPrec i q).age = g.age := rfl
@[simp] theorem setPrec_v (g : Group) (i : Nat) (q : PathRec) : (g.setPrec i q).v = g.v := rfl
@[simp] theorem setPrec_s (g : Group) (i : Nat) (q : PathRec) : (g.setPrec i q).s = g.s := rfl
@[simp] theorem setPrec_p (g : Group) (i : Nat) (q : PathRec) : (g.setPrec i q).p = g.p := rfl
@[simp] theorem setPrec_fe (g : Group) (i : Nat) (q : PathRec) : (g.setPrec i q).fe = g.fe := rfl
@[simp] theorem setPrec_due (g : Group) (i : Nat) (q : PathRec) : (g.setPrec i q).due = g.due := rfl
@[simp] theorem setPrec_recs (g : Group) (i : Nat) (q : PathRec) : (g.setPrec i q).recs = tabSet PathRec.free g.recs i q := rfl
@[simp] theorem setPrec_trapWaits (g : Group) (i : Nat) (q : PathRec) : (g.setPrec i q).trapWaits = g.trapWaits := rfl
@[simp] theorem setPrec_splits (g : Group) (i : Nat) (q : PathRec) : (g.setPrec i q).splits = g.splits := rfl
@[simp] theorem setPrec_gens (g : Group) (i : Nat) (q : PathRec) : (g.setPrec i q).gens = g.gens := rfl
@[simp] theorem setPrec_faultaddr (g : Group) (i : Nat) (q : PathRec) : (g.setPrec i q).faultaddr = g.faultaddr := rfl
@[simp] theorem setPrec_faultcode (g : Group) (i : Nat) (q : PathRec) : (g.setPrec i q).faultcode = g.faultcode := rfl
@[simp] theorem setPrec_mstat (g : Group) (i : Nat) (q : PathRec) : (g.setPrec i q).mstat = g.mstat := rfl
@[simp] theorem setPrec_seed (g : Group) (i : Nat) (q : PathRec) : (g.setPrec i q).seed = g.seed := rfl
@[simp] theorem setPrec_owes (g : Group) (i : Nat) (q : PathRec) : (g.setPrec i q).owes = g.owes := rfl
@[simp] theorem setPrec_wait (g : Group) (i : Nat) (q : PathRec) : (g.setPrec i q).wait = g.wait := rfl
@[simp] theorem setPrec_ended (g : Group) (i : Nat) (q : PathRec) : (g.setPrec i q).ended = g.ended := rfl

@[simp] theorem setFe_ctx (g : Group) (c : Nat) (x : FE) : (g.setFe c x).ctx = g.ctx := rfl
@[simp] theorem setFe_launch (g : Group) (c : Nat) (x : FE) : (g.setFe c x).launch = g.launch := rfl
@[simp] theorem setFe_team (g : Group) (c : Nat) (x : FE) : (g.setFe c x).team = g.team := rfl
@[simp] theorem setFe_index (g : Group) (c : Nat) (x : FE) : (g.setFe c x).index = g.index := rfl
@[simp] theorem setFe_role (g : Group) (c : Nat) (x : FE) : (g.setFe c x).role = g.role := rfl
@[simp] theorem setFe_part (g : Group) (c : Nat) (x : FE) : (g.setFe c x).part = g.part := rfl
@[simp] theorem setFe_budget (g : Group) (c : Nat) (x : FE) : (g.setFe c x).budget = g.budget := rfl
@[simp] theorem setFe_age (g : Group) (c : Nat) (x : FE) : (g.setFe c x).age = g.age := rfl
@[simp] theorem setFe_v (g : Group) (c : Nat) (x : FE) : (g.setFe c x).v = g.v := rfl
@[simp] theorem setFe_s (g : Group) (c : Nat) (x : FE) : (g.setFe c x).s = g.s := rfl
@[simp] theorem setFe_p (g : Group) (c : Nat) (x : FE) : (g.setFe c x).p = g.p := rfl
@[simp] theorem setFe_fe (g : Group) (c : Nat) (x : FE) : (g.setFe c x).fe = tabSet .full g.fe c x := rfl
@[simp] theorem setFe_due (g : Group) (c : Nat) (x : FE) : (g.setFe c x).due = g.due := rfl
@[simp] theorem setFe_recs (g : Group) (c : Nat) (x : FE) : (g.setFe c x).recs = g.recs := rfl
@[simp] theorem setFe_trapWaits (g : Group) (c : Nat) (x : FE) : (g.setFe c x).trapWaits = g.trapWaits := rfl
@[simp] theorem setFe_splits (g : Group) (c : Nat) (x : FE) : (g.setFe c x).splits = g.splits := rfl
@[simp] theorem setFe_gens (g : Group) (c : Nat) (x : FE) : (g.setFe c x).gens = g.gens := rfl
@[simp] theorem setFe_faultaddr (g : Group) (c : Nat) (x : FE) : (g.setFe c x).faultaddr = g.faultaddr := rfl
@[simp] theorem setFe_faultcode (g : Group) (c : Nat) (x : FE) : (g.setFe c x).faultcode = g.faultcode := rfl
@[simp] theorem setFe_mstat (g : Group) (c : Nat) (x : FE) : (g.setFe c x).mstat = g.mstat := rfl
@[simp] theorem setFe_seed (g : Group) (c : Nat) (x : FE) : (g.setFe c x).seed = g.seed := rfl
@[simp] theorem setFe_owes (g : Group) (c : Nat) (x : FE) : (g.setFe c x).owes = g.owes := rfl
@[simp] theorem setFe_wait (g : Group) (c : Nat) (x : FE) : (g.setFe c x).wait = g.wait := rfl
@[simp] theorem setFe_ended (g : Group) (c : Nat) (x : FE) : (g.setFe c x).ended = g.ended := rfl

@[simp] theorem setPred_ctx (g : Group) (i : Nat) (m b : LaneMask) : (g.setPred i m b).ctx = g.ctx := by unfold Group.setPred; split <;> rfl
@[simp] theorem setPred_launch (g : Group) (i : Nat) (m b : LaneMask) : (g.setPred i m b).launch = g.launch := by unfold Group.setPred; split <;> rfl
@[simp] theorem setPred_team (g : Group) (i : Nat) (m b : LaneMask) : (g.setPred i m b).team = g.team := by unfold Group.setPred; split <;> rfl
@[simp] theorem setPred_index (g : Group) (i : Nat) (m b : LaneMask) : (g.setPred i m b).index = g.index := by unfold Group.setPred; split <;> rfl
@[simp] theorem setPred_role (g : Group) (i : Nat) (m b : LaneMask) : (g.setPred i m b).role = g.role := by unfold Group.setPred; split <;> rfl
@[simp] theorem setPred_part (g : Group) (i : Nat) (m b : LaneMask) : (g.setPred i m b).part = g.part := by unfold Group.setPred; split <;> rfl
@[simp] theorem setPred_budget (g : Group) (i : Nat) (m b : LaneMask) : (g.setPred i m b).budget = g.budget := by unfold Group.setPred; split <;> rfl
@[simp] theorem setPred_age (g : Group) (i : Nat) (m b : LaneMask) : (g.setPred i m b).age = g.age := by unfold Group.setPred; split <;> rfl
@[simp] theorem setPred_v (g : Group) (i : Nat) (m b : LaneMask) : (g.setPred i m b).v = g.v := by unfold Group.setPred; split <;> rfl
@[simp] theorem setPred_s (g : Group) (i : Nat) (m b : LaneMask) : (g.setPred i m b).s = g.s := by unfold Group.setPred; split <;> rfl
@[simp] theorem setPred_fe (g : Group) (i : Nat) (m b : LaneMask) : (g.setPred i m b).fe = g.fe := by unfold Group.setPred; split <;> rfl
@[simp] theorem setPred_due (g : Group) (i : Nat) (m b : LaneMask) : (g.setPred i m b).due = g.due := by unfold Group.setPred; split <;> rfl
@[simp] theorem setPred_recs (g : Group) (i : Nat) (m b : LaneMask) : (g.setPred i m b).recs = g.recs := by unfold Group.setPred; split <;> rfl
@[simp] theorem setPred_trapWaits (g : Group) (i : Nat) (m b : LaneMask) : (g.setPred i m b).trapWaits = g.trapWaits := by unfold Group.setPred; split <;> rfl
@[simp] theorem setPred_splits (g : Group) (i : Nat) (m b : LaneMask) : (g.setPred i m b).splits = g.splits := by unfold Group.setPred; split <;> rfl
@[simp] theorem setPred_gens (g : Group) (i : Nat) (m b : LaneMask) : (g.setPred i m b).gens = g.gens := by unfold Group.setPred; split <;> rfl
@[simp] theorem setPred_faultaddr (g : Group) (i : Nat) (m b : LaneMask) : (g.setPred i m b).faultaddr = g.faultaddr := by unfold Group.setPred; split <;> rfl
@[simp] theorem setPred_faultcode (g : Group) (i : Nat) (m b : LaneMask) : (g.setPred i m b).faultcode = g.faultcode := by unfold Group.setPred; split <;> rfl
@[simp] theorem setPred_mstat (g : Group) (i : Nat) (m b : LaneMask) : (g.setPred i m b).mstat = g.mstat := by unfold Group.setPred; split <;> rfl
@[simp] theorem setPred_seed (g : Group) (i : Nat) (m b : LaneMask) : (g.setPred i m b).seed = g.seed := by unfold Group.setPred; split <;> rfl
@[simp] theorem setPred_owes (g : Group) (i : Nat) (m b : LaneMask) : (g.setPred i m b).owes = g.owes := by unfold Group.setPred; split <;> rfl
@[simp] theorem setPred_wait (g : Group) (i : Nat) (m b : LaneMask) : (g.setPred i m b).wait = g.wait := by unfold Group.setPred; split <;> rfl
@[simp] theorem setPred_ended (g : Group) (i : Nat) (m b : LaneMask) : (g.setPred i m b).ended = g.ended := by unfold Group.setPred; split <;> rfl

end Sys2Proof.Machine
end

