-- ==== Sys2Proof/Laws/Issue.lean ====
section
/-! SUPPORT. Sys2Proof/Laws/Issue.lean: what a change of one group leaves of the state, what the issue of a word
answers, and what going on after a word does. -/

namespace Sys2Proof.Machine

open Claim

/-! ### Cores and groups -/

theorem core_setCore (s : State) (c j : Nat) (x : Core) : (s.setCore c x).core j = if j = c then x else s.core j :=
  tabGet_set Core.idle s.cores c j x

theorem core_onCore (s : State) (c j : Nat) (f : Core → Core) :
    (s.onCore c f).core j = if j = c then f (s.core c) else s.core j := core_setCore ..

theorem group_onCore (s : State) (c j k : Nat) (f : Core → Core) :
    (s.onCore c f).group j k = if j = c then tabFind (f (s.core c)).groups k else s.group j k := by
  simp only [State.group, core_onCore]; split <;> simp_all

theorem group_onGroup (s : State) (c k j i : Nat) (f : Group → Group) :
    (s.onGroup c k f).group j i = if j = c ∧ i = k then (s.group c k).map f else s.group j i := by
  simp only [State.onGroup, group_onCore, tabFind_mod]
  by_cases h1 : j = c <;> by_cases h2 : i = k <;> simp_all [State.group]

theorem core_onGroup_ne (s : State) {c j : Nat} (k : Nat) (f : Group → Group) (h : j ≠ c) : (s.onGroup c k f).core j = s.core j := by
  simp [State.onGroup, core_onCore, h]

theorem core_onGroup (s : State) (c k : Nat) (f : Group → Group) :
    (s.onGroup c k f).core c = { s.core c with groups := tabMod (s.core c).groups k f } := by
  simp [State.onGroup, core_onCore]

/-- A change of one group changes nothing but cores. -/
theorem onGroup_eq (s : State) (c k : Nat) (f : Group → Group) :
    s.onGroup c k f = { s with cores := (s.onGroup c k f).cores } := rfl

/-- Two changes of one group are one. -/
theorem onGroup_onGroup (s : State) (c k : Nat) (f h : Group → Group) :
    ∀ j i, ((s.onGroup c k f).onGroup c k h).group j i = (s.onGroup c k (fun g => h (f g))).group j i := by
  intro j i
  simp only [group_onGroup]
  split
  · simp [Function.comp_def]
  · rfl

theorem issued_group (s : State) (c k : Nat) : s.issued.group c k = s.group c k := rfl
theorem issued_core (s : State) (c : Nat) : s.issued.core c = s.core c := rfl

/-! ### Records -/

theorem prec_setPrec (g : Group) (i j : Nat) (q : PathRec) : (g.setPrec i q).prec j = if j = i then q else g.prec j :=
  tabGet_set PathRec.free g.recs i j q

theorem stopAtHeader_free : PathRec.free.stopAtHeader = PathRec.free := rfl

/-- Every record that stands at its top header stops there. -/
def settled (g : Group) : Group := { g with recs := g.recs.map (fun q => (q.1, q.2.stopAtHeader)) }

theorem prec_settled (g : Group) (j : Nat) : (settled g).prec j = (g.prec j).stopAtHeader := by
  simp only [Group.prec, settled, tabGet, tabFind_map]
  cases tabFind g.recs j <;> rfl

/-! ### The issue of a word -/

theorem issuer_eq {s : State} {guard : BitVec 4} {e : Iss} (h : s.issuer guard = some e) :
    s.group e.core e.slot = some e.g ∧ e.q = e.g.prec e.prec ∧ e.q.state = .running ∧
      e.act = (e.q.lanes &&& e.g.guardMask guard) := by
  unfold State.issuer at h
  split at h
  · simp at h
  · split at h
    · simp at h
    · rename_i r hr g hg
      simp only at h
      split at h
      · simp only [Option.some.injEq] at h; subst h; exact ⟨hg, rfl, by assumption, rfl⟩
      · simp at h

/-- A word that runs has its own effect. -/
theorem issue_runs {i : Instr} {guard : BitVec 4} {e : Iss} {s : State} (h : Runs i guard e s) (fixed pre : Iss → State → Bool)
    (body : Iss → State → State) (hf : fixed e s.issued = true) (hp : pre e s.issued = true) :
    s.issue i guard fixed pre body = .next (body e s.issued) := by
  obtain ⟨h1, h2, x, h3, h4, h5, h6, h7, h9⟩ := h
  have h8 : s.issued.afterAcquire e i = false := h7
  unfold State.issue
  simp only [State.loopBack, h1, h3, h4, h5, hf, hp, h6, h8, h9, Bool.and_self, Bool.not_true, Bool.false_eq_true, ↓reduceIte, if_neg h2]

theorem issue_always {i : Instr} {guard : BitVec 4} {e : Iss} {s : State} (h : Runs i guard e s) (body : Iss → State → State) :
    s.issue i guard always always body = .next (body e s.issued) := issue_runs h _ _ _ rfl rfl

/-! ### Going on after a word -/

/-- A change of one group, followed by the stop at headers, is a change of that group alone. -/
theorem settle_onlyGroup {s u : State} {c k : Nat} {g1 : Group}
    (hu : u = { s with cores := u.cores }) (hc : ∀ j, j ≠ c → u.core j = s.core j)
    (hk : u.core c = { s.core c with groups := (u.core c).groups }) (h1 : u.group c k = some g1)
    (h2 : ∀ i, i ≠ k → u.group c i = s.group c i) :
    OnlyGroup s (u.settle c k) c k (settled g1) := by
  have hs : (u.settle c k) = { u with
      cores := (u.onGroup c k settled).cores, agenda := (settled g1).reconvEvents c k ++ u.agenda } := by
    unfold State.settle
    have : (u.onGroup c k settled).group c k = some (settled g1) := by simp [group_onGroup, h1]
    unfold settled at this
    simp only [this]
    rfl
  have hag : u.agenda = s.agenda := by rw [hu]
  have hcore : ∀ j, (u.settle c k).core j = (u.onGroup c k settled).core j := by intro j; rw [hs]; rfl
  have hgrp : ∀ j i, (u.settle c k).group j i = (u.onGroup c k settled).group j i := by intro j i; rw [hs]; rfl
  refine ⟨⟨?_, fun a => ?_⟩, ?_, ?_, ?_, ?_, ?_⟩
  · rw [hs, hu]
  · rw [hs, hu]; rfl
  · rw [hs, hag]
  · intro j hj; rw [hcore, core_onGroup_ne _ _ _ hj, hc j hj]
  · rw [hcore, core_onGroup, hk]
  · rw [hgrp, group_onGroup]; simp [h1]
  · intro i hi; rw [hgrp, group_onGroup]; simp [hi, h2 i hi]

/-- A result and the word after: what `State.result` does. -/
theorem result_onlyGroup {s : State} {e : Iss} (hg : s.group e.core e.slot = some e.g) (f : Group → Group) :
    OnlyGroup s.issued (s.issued.result e f) e.core e.slot
      (settled ((f e.g).setPrec e.prec
        { (f e.g).prec e.prec with place := ((f e.g).prec e.prec).place.after, answer := none, arrive := none, drained := none })) := by
  unfold State.result State.after State.advance State.onPrec
  refine settle_onlyGroup rfl ?_ ?_ ?_ ?_
  · intro j hj; simp [core_onGroup_ne _ _ _ hj, issued_core]
  · simp [core_onGroup, issued_core]
  · simp [group_onGroup, issued_group, hg]
  · intro i hi; simp [group_onGroup, hi, issued_group]

end Sys2Proof.Machine
end

