-- ==== Sys2Proof/Laws/Memory.lean ====
section
/-! SUPPORT. Sys2Proof/Laws/Memory.lean: every operation on memory keeps its canonical form, and what each byte reads
after a write. Everything that writes memory goes through `State.rawWrite`, `State.rawWriteLine`, `State.copyLine`,
`State.clearMemory` and what is built on them; each has its lemma here. -/

open Sys2Proof.Claim

namespace Sys2Proof.Machine

/-- Memory is as before, or has gained and lost bytes with its canonical form kept. -/
def State.MemKept (s t : State) : Prop := Memory.wf s.mem = true → Memory.wf t.mem = true

theorem State.MemKept.rfl {s : State} : s.MemKept s := id

theorem State.MemKept.trans {s t u : State} (h : s.MemKept t) (h' : t.MemKept u) : s.MemKept u := fun w => h' (h w)

/-- An operation that leaves the bytes alone keeps the form. -/
theorem State.MemKept.of_eq {s t : State} (h : t.mem = s.mem) : s.MemKept t := fun w => h ▸ w

theorem memWf_reset : Memory.wf State.reset.mem = true := by decide

/-! ### Writes of bytes -/

theorem memWf_setList (m : Table Byte) (bs : List Byte) (a : Nat) (h : Memory.wf m = true) : Memory.wf (tabSetList 0 m a bs) = true := by
  induction bs generalizing m a with
  | nil => exact h
  | cons b bs ih => exact ih _ _ (tabWf_set 0 m a b h)

theorem memWf_setMany (l : List Nat) (m : Table Byte) (p : Nat → Bool) (k : Nat → Nat) (f : Nat → Byte) (h : Memory.wf m = true) :
    Memory.wf (l.foldl (fun t i => if p i then tabSet 0 t (k i) (f i) else t) m) = true := by
  induction l generalizing m with
  | nil => exact h
  | cons i l ih =>
    simp only [List.foldl_cons]
    split
    · exact ih _ (tabWf_set 0 m _ _ h)
    · exact ih _ h

theorem rawWrite_kept (s : State) (pa : Nat) (bs : List Byte) : s.MemKept (s.rawWrite pa bs) := memWf_setList _ _ _

theorem rawWriteLine_mem (s : State) (l : Nat) (d : Line) (m : ByteMask) : (s.rawWriteLine l d m).mem =
    (List.range 128).foldl (fun t i => if m.getLsbD i then tabSet 0 t (l * 128 + i) (lineByte d i) else t) s.mem := by
  simp only [State.rawWriteLine]

theorem rawWriteLine_kept (s : State) (l : Nat) (d : Line) (m : ByteMask) : s.MemKept (s.rawWriteLine l d m) :=
  fun h => by
    rw [rawWriteLine_mem]
    exact memWf_setMany (List.range 128) s.mem (fun i => m.getLsbD i) (fun i => l * 128 + i) (fun i => lineByte d i) h

theorem copyLine_mem (s : State) (src dst : Nat) :
    (s.copyLine src dst).mem = (s.rawWriteLine dst (s.rawLine src) (BitVec.allOnes 128)).mem := by
  simp only [State.copyLine]

theorem copyLine_kept (s : State) (src dst : Nat) : s.MemKept (s.copyLine src dst) :=
  fun h => by rw [copyLine_mem]; exact rawWriteLine_kept s dst _ _ h

theorem memWf_filter (m : Table Byte) (p : Nat × Byte → Bool) (h : Memory.wf m = true) : Memory.wf (m.filter p) = true := by
  simp only [Memory.wf, tabWf, Bool.and_eq_true, List.all_eq_true] at h ⊢
  exact ⟨tabSorted_filter _ _ h.1, fun e he => h.2 e (List.mem_filter.mp he).1⟩

theorem clearMemory_kept (s : State) : s.MemKept s.clearMemory := memWf_filter s.mem _

theorem moduleReset_mem (s : State) : s.moduleReset.mem = s.mem := rfl

/-- What a byte reads after consecutive bytes are written. -/
theorem tabGet_setList (m : Table Byte) (bs : List Byte) (k a : Nat) :
    tabGet 0 (tabSetList 0 m k bs) a = if k ≤ a ∧ a < k + bs.length then bs.getD (a - k) 0 else tabGet 0 m a := by
  induction bs generalizing m k with
  | nil => rw [if_neg (by simp only [List.length_nil]; omega)]; rfl
  | cons b bs ih =>
    simp only [tabSetList, ih, tabGet_set, List.length_cons]
    by_cases h1 : a = k
    · subst h1
      rw [if_neg (by omega), if_pos rfl, if_pos (by omega)]
      simp
    · by_cases h2 : k + 1 ≤ a ∧ a < k + 1 + bs.length
      · rw [if_pos h2, if_pos (by omega)]
        obtain ⟨n, hn⟩ : ∃ n, a - k = n + 1 := ⟨a - k - 1, by omega⟩
        rw [hn, List.getD_cons_succ]; congr 1; omega
      · rw [if_neg h2, if_neg h1, if_neg (by omega)]

theorem memByte_rawWrite (s : State) (pa : Nat) (bs : List Byte) (a : Nat) :
    memByte (s.rawWrite pa bs) a = if pa ≤ a ∧ a < pa + bs.length then bs.getD (a - pa) 0 else memByte s a :=
  tabGet_setList _ _ _ _

theorem tabGet_setMany (n : Nat) (m : Table Byte) (p : Nat → Bool) (k : Nat) (f : Nat → Byte) (a : Nat) :
    tabGet 0 ((List.range n).foldl (fun t i => if p i then tabSet 0 t (k + i) (f i) else t) m) a =
      if k ≤ a ∧ a < k + n ∧ p (a - k) = true then f (a - k) else tabGet 0 m a := by
  induction n with
  | zero => simp; omega
  | succ n ih =>
    rw [List.range_succ, List.foldl_append, List.foldl_cons, List.foldl_nil]
    by_cases hp : p n = true
    · rw [if_pos hp, tabGet_set, ih]
      by_cases ha : a = k + n
      · subst ha; simp [hp]
      · rw [if_neg ha]
        by_cases h : k ≤ a ∧ a < k + n ∧ p (a - k) = true
        · rw [if_pos h, if_pos ⟨h.1, by omega, h.2.2⟩]
        · rw [if_neg h, if_neg (fun h' => h ⟨h'.1, by omega, h'.2.2⟩)]
    · rw [if_neg hp, ih]
      by_cases h : k ≤ a ∧ a < k + n ∧ p (a - k) = true
      · rw [if_pos h, if_pos ⟨h.1, by omega, h.2.2⟩]
      · rw [if_neg h, if_neg]
        rintro ⟨h1, h2, h3⟩
        refine h ⟨h1, ?_, h3⟩
        rcases Nat.lt_or_ge a (k + n) with h' | h'
        · exact h'
        · have : a - k = n := by omega
          exact absurd (this ▸ h3) hp

/-- What a byte reads after a write of a line's bytes that a mask names. -/
theorem memByte_rawWriteLine (s : State) (l : Nat) (d : Line) (m : ByteMask) (a : Nat) :
    memByte (s.rawWriteLine l d m) a =
      if l * 128 ≤ a ∧ a < l * 128 + 128 ∧ m.getLsbD (a - l * 128) = true then lineByte d (a - l * 128) else memByte s a := by
  rw [memByte, rawWriteLine_mem]
  exact tabGet_setMany 128 s.mem (fun i => m.getLsbD i) (l * 128) (fun i => lineByte d i) a

/-! ### Snapshots read memory and do not write it -/

theorem snapCarry_mem (s : State) (c j l : Nat) : (s.snapCarry c j l).mem = s.mem := by
  simp only [State.snapCarry]
  split
  · rfl
  · split <;> rfl

theorem snapStep_mem (s : State) (k : Nat) : (s.snapStep k).mem = s.mem := by
  simp only [State.snapStep]
  split
  · rfl
  · split
    · rfl
    · simp only [State.onCore, State.setCore]
      split
      · rfl
      · exact snapCarry_mem _ _ _ _

theorem foldl_mem {α : Type} (l : List α) (f : State → α → State) (h : ∀ s x, (f s x).mem = s.mem) (s : State) :
    (l.foldl f s).mem = s.mem := by
  induction l generalizing s with
  | nil => rfl
  | cons x l ih => rw [List.foldl_cons, ih, h]

theorem snapEarly_mem (s : State) (k l : Nat) : (s.snapEarly k l).mem = s.mem := by
  simp only [State.snapEarly]
  split
  · rfl
  · split
    · split
      · split
        · rfl
        · exact snapCarry_mem _ _ _ _
      · exact foldl_mem _ _ (fun s _ => snapStep_mem s k) _
    · rfl

theorem snapBefore_mem (s : State) (l : Nat) : (s.snapBefore l).mem = s.mem :=
  foldl_mem s.migs (fun s e => s.snapEarly e.1 l) (fun s e => snapEarly_mem s e.1 l) s

/-! ### Controllers and homes -/

theorem ctlWrite_kept {s t : State} {l : Nat} {d : Line} {m : ByteMask} (h : s.ctlWrite l d m = .ok t) : s.MemKept t := by
  simp only [State.ctlWrite] at h
  split at h
  · cases h
  · injection h with h
    have hm : t.mem = ((s.snapBefore (s.forward l)).rawWriteLine (s.forward l) d m).mem := by rw [← h]
    intro w
    rw [hm]
    exact rawWriteLine_kept _ _ _ _ (State.MemKept.of_eq (snapBefore_mem s _) w)

/-! ### Packets of the upper deck write no memory -/

theorem inject_mem (s : State) (r : Nat) (c : Chan) (p : Packet) : (s.inject r c p).mem = s.mem := by
  unfold State.inject; dsimp only; split <;> rfl

theorem post_mem (s : State) (peer : Nat) (c : Chan) (op job x line : Nat) (mask : ByteMask) (bs : List Byte) :
    (s.post peer c op job x line mask bs).mem = s.mem := by
  unfold State.post; split
  · rfl
  · exact inject_mem _ _ _ _

theorem toMirror_mem (s : State) (l m : Nat) (mask : ByteMask) (bs : List Byte) : (s.toMirror l m mask bs).mem = s.mem := by
  unfold State.toMirror; split
  · exact post_mem ..
  · rfl

theorem toHome_mem (s : State) (r : HomeRef) (a op flag : Nat) (mask : ByteMask) (bs : List Byte) :
    (s.toHome r a op flag mask bs).mem = s.mem := by
  unfold State.toHome; split
  · split
    · exact post_mem ..
    · rfl
  · rfl

theorem toAgent_mem (s : State) (r : HomeRef) (a op x : Nat) : (s.toAgent r a op x).mem = s.mem := by
  unfold State.toAgent; split
  · split
    · exact post_mem ..
    · rfl
  · rfl

theorem homeWrite_kept {s t : State} {r : HomeRef} {d : Line} {m : ByteMask} (h : s.homeWrite r d m = .ok t) : s.MemKept t := by
  simp only [State.homeWrite, bind, Except.bind] at h
  split at h
  · cases h
  · split at h
    · cases h
    · rename_i h1
      split at h
      · split at h
        · exact (ctlWrite_kept h1).trans ((State.MemKept.of_eq (toMirror_mem ..)).trans (ctlWrite_kept h))
        · cases h; exact ctlWrite_kept h1
      · cases h; exact ctlWrite_kept h1

theorem foldlM_kept {α : Type} (l : List α) (f : State → α → Except Nat State) (h : ∀ s x t, f s x = .ok t → s.MemKept t) {s t : State}
    (ht : l.foldlM f s = .ok t) : s.MemKept t := by
  induction l generalizing s with
  | nil => cases ht; exact .rfl
  | cons x l ih =>
    simp only [List.foldlM_cons, bind, Except.bind] at ht
    split at ht
    · cases ht
    · rename_i h1
      exact (h _ _ _ h1).trans (ih ht)

theorem setDir_mem (s : State) (l : Nat) (d : DirEntry) : (s.setDir l d).mem = s.mem := by
  unfold State.setDir; dsimp only
  split
  · split
    · exact toMirror_mem ..
    · rfl
  · rfl

theorem gather_kept {s t : State} {r : HomeRef} (h : s.gather r = .ok t) : s.MemKept t := by
  simp only [State.gather, bind, Except.bind, pure, Except.pure] at h
  split at h
  · cases h; exact .rfl
  · split at h
    · cases h
    · rename_i h1
      cases h
      refine (foldlM_kept _ _ (fun s x t ht => ?_) h1).trans (.of_eq (setDir_mem _ _ _))
      split at ht
      · split at ht
        · cases ht
        · rename_i h2
          cases ht
          exact (State.MemKept.of_eq (toAgent_mem ..)).trans ((homeWrite_kept h2).trans (.of_eq rfl))
      · cases ht; exact .rfl

/-! ### Agents -/

theorem setAgent_mem (s : State) (a l : Nat) (x : AgentLine) : (s.setAgent a l x).mem = s.mem := rfl
theorem grant_mem (s : State) (a l : Nat) (st : Moesi) (d : Line) (m : ByteMask) (cos : Nat) : (s.grant a l st d m cos).mem = s.mem := rfl

theorem readForward_mem (s : State) (a l : Nat) : (s.readForward a l).2.mem = s.mem := by
  simp only [State.readForward]; repeat' (first | rfl | split)

theorem ownForward_mem (s : State) (a l : Nat) : (s.ownForward a l).2.mem = s.mem := by
  simp only [State.ownForward]; repeat' (first | rfl | split)

theorem invalidateAgent_mem (s : State) (a l : Nat) : (s.invalidateAgent a l).mem = s.mem := by
  simp only [State.invalidateAgent]; repeat' (first | rfl | split)

theorem invalidateAll_mem (s : State) (as : List Nat) (l : Nat) : (s.invalidateAll as l).mem = s.mem :=
  foldl_mem _ _ (fun _ a => (invalidateAgent_mem _ a l).trans (toAgent_mem ..)) _

theorem convertAgent_mem (s : State) (a l : Nat) : (s.convertAgent a l).2.mem = s.mem := by
  simp only [State.convertAgent]; repeat' (first | rfl | split)

theorem grantPw_mem (s : State) (r : HomeRef) (a : Nat) (m : ByteMask) (cos : Nat) : (s.grantPw r a m cos).mem = s.mem := by
  simp only [State.grantPw]; split
  · rw [setAgent_mem, setDir_mem]
  · rw [grant_mem, setDir_mem]

theorem sharerEvict_mem (s : State) (r : HomeRef) (a : Nat) : (s.sharerEvict r a).mem = s.mem := by
  simp only [State.sharerEvict]; split
  · split
    · rw [setDir_mem]; rfl
    · rfl
  · rfl

theorem homeReadReq_kept {s t : State} {r : HomeRef} {a cos : Nat} (h : s.homeReadReq r a cos = .ok t) : s.MemKept t := by
  simp only [State.homeReadReq, bind, Except.bind, pure, Except.pure] at h
  split at h
  · cases h
  · rename_i s1 h1
    refine (gather_kept h1).trans ?_
    generalize hd : s1.entryAt r = d at h
    have hf := (readForward_mem (s1.toAgent r d.owner 12 a) d.owner r.line).trans (toAgent_mem ..)
    generalize ho : (s1.toAgent r d.owner 12 a).readForward d.owner r.line = o at h hf
    obtain ⟨f, u⟩ := o
    simp only at h hf
    refine .of_eq ?_
    split at h
    · split at h
      · rename_i h2
        cases h2; injection h with h; rw [← h, grant_mem, setDir_mem, hf]
      · rename_i h2
        cases h2
        split at h
        · cases h
        · injection h with h; rw [← h, grant_mem, setDir_mem, hf]
    · split at h
      · rename_i h2
        cases h2; injection h with h; rw [← h, grant_mem, setDir_mem, hf]
      · rename_i h2
        cases h2
        split at h
        · cases h
        · injection h with h; rw [← h, grant_mem, setDir_mem, hf]
    · split at h
      · cases h
      · injection h with h; rw [← h, grant_mem, setDir_mem]
    · split at h
      · cases h
      · injection h with h; rw [← h, grant_mem, setDir_mem]

theorem homeOwnWhole_mem {s t : State} {r : HomeRef} {a cos : Nat} (h : s.homeOwnWhole r a cos = .ok t) : t.mem = s.mem := by
  simp only [State.homeOwnWhole, bind, Except.bind, pure, Except.pure] at h
  generalize hd : s.entryAt r = d at h
  have hf := (ownForward_mem (s.toAgent r d.owner 13 a) d.owner r.line).trans (toAgent_mem ..)
  generalize ho : (s.toAgent r d.owner 13 a).ownForward d.owner r.line = o at h hf
  obtain ⟨f, u⟩ := o
  simp only at h hf
  split at h
  · split at h
    · injection h with h; rw [← h]
    · split at h
      · rename_i h2
        cases h2; injection h with h; rw [← h, grant_mem, setDir_mem, hf]
      · rename_i h2
        cases h2
        split at h
        · cases h
        · injection h with h; rw [← h, grant_mem, setDir_mem, hf]
  · split at h
    · split at h
      · injection h with h; rw [← h, setAgent_mem, setDir_mem, invalidateAll_mem]
      · injection h with h; rw [← h, invalidateAll_mem]
    · split at h
      · injection h with h; rw [← h, setAgent_mem, setDir_mem, invalidateAll_mem, hf]
      · injection h with h; rw [← h, setAgent_mem, setDir_mem, invalidateAll_mem, hf]
      · injection h with h; rw [← h, grant_mem, setDir_mem, invalidateAll_mem, hf]
      · split at h
        · cases h
        · injection h with h; rw [← h, grant_mem, setDir_mem, invalidateAll_mem, hf]
  · split at h
    · injection h with h; rw [← h, setAgent_mem, setDir_mem, invalidateAll_mem]
    · split at h
      · cases h
      · injection h with h; rw [← h, grant_mem, setDir_mem, invalidateAll_mem]
  · split at h
    · cases h
    · injection h with h; rw [← h, grant_mem, setDir_mem]

theorem homeOwnWhole_kept {s t : State} {r : HomeRef} {a cos : Nat} (h : s.homeOwnWhole r a cos = .ok t) : s.MemKept t :=
  .of_eq (homeOwnWhole_mem h)

theorem gatherThenOwn_kept {s t : State} {r : HomeRef} {a cos : Nat}
    (h : (s.gather r).bind (fun s => s.homeOwnWhole r a cos) = .ok t) : s.MemKept t := by
  simp only [Except.bind] at h
  split at h
  · cases h
  · rename_i h1
    exact (gather_kept h1).trans (homeOwnWhole_kept h)

theorem homeOwnReq_kept {s t : State} {r : HomeRef} {a : Nat} {whole : Bool} {mask : ByteMask} {cos : Nat}
    (h : s.homeOwnReq r a whole mask cos = .ok t) : s.MemKept t := by
  simp only [State.homeOwnReq, bind, pure, Except.pure] at h
  generalize hd : s.entryAt r = d at h
  have hc := (convertAgent_mem (s.toAgent r d.owner 15 a) d.owner r.line).trans (toAgent_mem ..)
  generalize ho : (s.toAgent r d.owner 15 a).convertAgent d.owner r.line = o at h hc
  obtain ⟨f, u⟩ := o
  simp only at h hc
  split at h <;> split at h
  all_goals first | exact gatherThenOwn_kept h | skip
  all_goals
    split at h
    · split at h
      · injection h with h; exact .of_eq (h ▸ grantPw_mem _ _ _ _ _)
      · exact gatherThenOwn_kept h
    · exact homeOwnWhole_kept h
    · exact homeOwnWhole_kept h
    · have hi : s.MemKept (u.invalidateAll d.sharers r.line) := .of_eq ((invalidateAll_mem _ _ _).trans hc)
      split at h
      · simp only [Except.bind] at h
        split at h
        · cases h
        · rename_i h2
          refine hi.trans ((homeWrite_kept h2).trans ?_)
          split at h
          · injection h with h; exact .of_eq (h ▸ (grantPw_mem _ _ _ _ _).trans (setDir_mem _ _ _))
          · exact (State.MemKept.of_eq (setDir_mem _ _ _)).trans (gatherThenOwn_kept h)
      · exact hi.trans (homeOwnWhole_kept h)

theorem homeMaskReq_kept {s t : State} {r : HomeRef} {a : Nat} {mask : ByteMask} {cos : Nat}
    (h : s.homeMaskReq r a mask cos = .ok t) : s.MemKept t := by
  simp only [State.homeMaskReq, bind, Except.bind] at h
  split at h
  · split at h
    · cases h; exact .of_eq (grantPw_mem _ _ _ _ _)
    · split at h
      · cases h
      · rename_i h1
        exact (gather_kept h1).trans (homeOwnReq_kept h)
  · exact homeOwnReq_kept h

theorem homeWriteBack_kept {s t : State} {r : HomeRef} {a : Nat} (h : s.homeWriteBack r a = .ok t) : s.MemKept t := by
  simp only [State.homeWriteBack, bind, Except.bind, pure, Except.pure] at h
  split at h
  · cases h; exact .rfl
  · split at h
    · exact gather_kept h
    · cases h; exact .rfl
    · split at h
      · cases h
      · rename_i h1
        cases h
        exact (homeWrite_kept h1).trans (.of_eq (setDir_mem _ _ _))

theorem evictAgent_kept {s t : State} {r : HomeRef} {a : Nat} {x : AgentLine} (h : s.evictAgent r a x = .ok t) : s.MemKept t := by
  unfold State.evictAgent at h
  split at h
  · cases h; exact .of_eq ((sharerEvict_mem _ _ _).trans (toHome_mem ..))
  · exact (State.MemKept.of_eq (toHome_mem ..)).trans (homeWriteBack_kept h)

theorem l2MakeRoom_kept {s t : State} {a l cos : Nat} (h : s.l2MakeRoom a l cos = .ok t) : s.MemKept t := by
  simp only [State.l2MakeRoom] at h
  split at h
  · cases h; exact .rfl
  · split at h
    · cases h; exact .rfl
    · split at h
      · exact fun w => evictAgent_kept h w
      · exact evictAgent_kept h

theorem unallocated_kept {s t : State} {a : Nat} {r : HomeRef} {cos : Nat} (h : s.unallocated a r cos = .ok t) : s.MemKept t := by
  simp only [State.unallocated] at h
  split at h
  · cases h; exact .rfl
  · split at h
    · exact evictAgent_kept h
    · cases h; exact .rfl

/-- What an agent asks of a home keeps the canonical form, as what it is answered does. -/
theorem toHome_kept {s t : State} (r : HomeRef) (a op flag : Nat) (mask : ByteMask) (bs : List Byte)
    (h : (s.toHome r a op flag mask bs).MemKept t) : s.MemKept t := (State.MemKept.of_eq (toHome_mem ..)).trans h

theorem lineWritten_mem (s : State) (l : Nat) (mask : ByteMask) : (s.lineWritten l mask).mem = s.mem := rfl

/-- A read at an agent keeps the canonical form. -/
theorem agentRead_kept {s t : State} {a : Nat} {r : HomeRef} {mask : ByteMask} {cos : Nat} {acq : Bool} {d : Line}
    (h : s.agentRead a r mask cos acq = .ok (d, t)) : s.MemKept t := by
  simp only [State.agentRead, bind, Except.bind, pure, Except.pure] at h
  split at h
  · split at h
    · cases h; exact .of_eq rfl
    · split at h
      · cases h
      · rename_i h1
        split at h
        · cases h; exact toHome_kept _ _ _ _ _ _ (homeReadReq_kept h1)
        · cases h
  · split at h
    · cases h
    · rename_i h1
      split at h
      · cases h
      · rename_i h2
        split at h
        · split at h
          · cases h
          · rename_i h3
            cases h
            exact ((l2MakeRoom_kept h1).trans (toHome_kept _ _ _ _ _ _ (homeReadReq_kept h2))).trans (unallocated_kept h3)
        · cases h

/-- A write at an agent keeps the canonical form. -/
theorem agentWrite_kept {s t : State} {a : Nat} {r : HomeRef} {d : Line} {mask : ByteMask} {whole : Bool} {cos : Nat} {core : Option Nat}
    (h : s.agentWrite a r d mask whole cos core = .ok t) : s.MemKept t := by
  simp only [State.agentWrite, bind, Except.bind] at h
  split at h
  · split at h
    · split at h
      · cases h
      · injection h with h; exact .of_eq (h ▸ rfl)
    · split at h
      · cases h
      · injection h with h; exact .of_eq (h ▸ rfl)
    · split at h
      · split at h
        · cases h
        · injection h with h; exact .of_eq (h ▸ rfl)
      · split at h
        · split at h
          · cases h
          · rename_i h1; refine (toHome_kept _ _ _ _ _ _ (homeOwnReq_kept h1)).trans ?_
            split at h
            · cases h
            · injection h with h; exact .of_eq (h ▸ rfl)
        · split at h
          · cases h
          · rename_i h1; refine (toHome_kept _ _ _ _ _ _ (homeMaskReq_kept h1)).trans ?_
            split at h
            · cases h
            · injection h with h; exact .of_eq (h ▸ rfl)
    · split at h
      · cases h
      · rename_i h1; refine (toHome_kept _ _ _ _ _ _ (homeOwnReq_kept h1)).trans ?_
        split at h
        · cases h
        · injection h with h; exact .of_eq (h ▸ rfl)
  · split at h
    · cases h
    · rename_i h1
      split at h
      · cases h
      · rename_i h2; refine ((l2MakeRoom_kept h1).trans (toHome_kept _ _ _ _ _ _ (homeOwnReq_kept h2))).trans ?_
        split at h
        · cases h
        · rename_i h3
          refine State.MemKept.trans ?_ (unallocated_kept h)
          split at h3
          · cases h3
          · injection h3 with h3; exact .of_eq (h3 ▸ rfl)

/-- The write of an update in one keeps the canonical form. -/
theorem agentChange_kept {s t : State} {a : Nat} {r : HomeRef} {cos : Nat} {core : Option Nat} {f : Line → Line × ByteMask} {x : Option Line}
    {d : Line} (h : (match x with
      | none => (Except.error 19 : Except Nat (Line × State))
      | some d => (s.agentWrite a r (f d).1 (f d).2 true cos core).map (fun t => (d, t))) = .ok (d, t)) : s.MemKept t := by
  split at h
  · cases h
  · simp only [Except.map] at h
    split at h
    · cases h
    · rename_i h1; cases h; exact agentWrite_kept h1

/-- A read and a write of a line in one keep the canonical form. -/
theorem agentUpdate_kept {s t : State} {a : Nat} {r : HomeRef} {cos : Nat} {core : Option Nat} {f : Line → Line × ByteMask} {d : Line}
    (h : s.agentUpdate a r cos core f = .ok (d, t)) : s.MemKept t := by
  simp only [State.agentUpdate, bind, Except.bind, pure, Except.pure] at h
  split at h
  · exact agentChange_kept h
  · split at h
    · split at h
      · cases h
      · rename_i h1; exact (toHome_kept _ _ _ _ _ _ (homeOwnReq_kept h1)).trans (agentChange_kept h)
    · split at h
      · cases h
      · rename_i h1
        split at h
        · cases h
        · rename_i h2
          refine ((l2MakeRoom_kept h1).trans (toHome_kept _ _ _ _ _ _ (homeOwnReq_kept h2))).trans ?_
          split at h
          · cases h
          · rename_i h3
            refine (agentChange_kept h3).trans ?_
            split at h
            · cases h
            · rename_i h4; cases h; exact unallocated_kept h4

end Sys2Proof.Machine
end

