-- ==== Sys2Proof/Laws/Write.lean ====
section
/-! SUPPORT. Sys2Proof/Laws/Write.lean: what a write of a destination does to a group's registers, and what an
instruction that only writes one does to the machine. -/

namespace Sys2Proof.Machine

open Claim

/-! ### Registers read after a write -/

theorem vreg_setVreg (g : Group) {r l r' l' : Nat} (x : Word32) (h : l < 32) (h' : l' < 32) :
    (g.setVreg r l x).vreg r' l' = if r' = r ∧ l' = l then x else g.vreg r' l' := by
  simp only [Group.vreg, Group.setVreg, tabGet_set]
  by_cases hh : r' = r ∧ l' = l
  · obtain ⟨rfl, rfl⟩ := hh; simp
  · have : ¬ 32 * r' + l' = 32 * r + l := by omega
    simp [hh, this]

theorem sreg_setSreg (g : Group) (r r' : Nat) (x : Word64) : (g.setSreg r x).sreg r' = if r' = r then x else g.sreg r' :=
  tabGet_set 0 g.s r r' x

theorem mask_insert (m bits old : LaneMask) (l : Nat) (h : l < 32) :
    ((old &&& ~~~m) ||| (bits &&& m)).getLsbD l = if m.getLsbD l then bits.getLsbD l else old.getLsbD l := by
  simp only [BitVec.getLsbD_or, BitVec.getLsbD_and, BitVec.getLsbD_not]
  cases m.getLsbD l <;> simp [h]

theorem predBit_zero (g : Group) {l : Nat} (h : l < 32) : g.predBit 0 l = true := by
  have : (BitVec.allOnes 32).getLsbD l = true := by rw [BitVec.getLsbD_allOnes]; simpa using h
  simpa only [Group.predBit, Group.pred, ↓reduceIte] using this

theorem predBit_setPred (g : Group) (i r : Nat) (m bits : LaneMask) {l : Nat} (h : l < 32) :
    (g.setPred i m bits).predBit r l = if r = i ∧ i ≠ 0 ∧ m.getLsbD l = true then bits.getLsbD l else g.predBit r l := by
  unfold Group.setPred
  by_cases hi : i = 0
  · simp [hi]
  · simp only [hi, ↓reduceIte, Group.predBit]
    by_cases hr : r = i
    · subst hr
      have : ({ g with p := tabSet 0 g.p r ((g.pred r &&& ~~~m) ||| (bits &&& m)) } : Group).pred r
          = (g.pred r &&& ~~~m) ||| (bits &&& m) := by
        simp [Group.pred, hi, tabGet_set]
      rw [this, mask_insert _ _ _ _ h]
      cases m.getLsbD l <;> simp [hi]
    · simp [Group.pred, tabGet_set, hr]

theorem laneBit_getLsbD (i l : Nat) (hl : l < 32) : (laneBit i).getLsbD l = decide (l = i) := by
  simp only [laneBit, BitVec.getLsbD_shiftLeft]
  by_cases h : l = i
  · subst h; simp [hl]
  · simp only [hl, decide_true, Bool.true_and, h, decide_false, Bool.and_eq_false_imp, Bool.not_eq_eq_eq_not, Bool.not_true,
      decide_eq_false_iff_not, Nat.not_lt]
    intro h2
    simp; omega

theorem maskOf_fold (ls : List Nat) (m : LaneMask) (l : Nat) (hl : l < 32) :
    (ls.foldl (fun m i => m ||| laneBit i) m).getLsbD l = (m.getLsbD l || decide (l ∈ ls)) := by
  induction ls generalizing m with
  | nil => simp
  | cons a ls ih =>
    simp only [List.foldl_cons, ih, BitVec.getLsbD_or, laneBit_getLsbD _ _ hl, List.mem_cons]
    by_cases h : l = a <;> simp [h]

theorem maskOf_getLsbD (ls : List Nat) (l : Nat) (hl : l < 32) : (maskOf ls).getLsbD l = decide (l ∈ ls) := by
  unfold maskOf; rw [maskOf_fold ls 0 l hl]; simp

theorem mem_lanesOf {m : LaneMask} {l : Nat} : l ∈ lanesOf m ↔ l < 32 ∧ m.getLsbD l = true := by
  simp [lanesOf]

theorem lanesOf_nodup (m : LaneMask) : (lanesOf m).Nodup := List.Nodup.sublist List.filter_sublist List.nodup_range

/-- What a write of v registers, lane by lane, leaves in them. -/
theorem vreg_writeV (g : Group) {r n l r' l' : Nat} (x : Word64) (h : l < 32) (h' : l' < 32) :
    (g.writeV r n l x).vreg r' l' =
      if l' = l ∧ r' = r then x.setWidth 32 else if l' = l ∧ n = 2 ∧ r' = r + 1 then (x >>> 32).setWidth 32 else g.vreg r' l' := by
  unfold Group.writeV
  by_cases hn : n = 2
  · simp only [hn, ↓reduceIte, vreg_setVreg _ _ h h']
    by_cases h1 : l' = l <;> by_cases h2 : r' = r <;> by_cases h3 : r' = r + 1 <;> simp_all
  · simp only [hn, ↓reduceIte, vreg_setVreg _ _ h h']
    by_cases h1 : l' = l <;> by_cases h2 : r' = r <;> simp_all

theorem vreg_foldV (ls : List Nat) (g : Group) {r n r' l' : Nat} (f : Nat → Word64) (hl : ∀ l ∈ ls, l < 32) (hn : ls.Nodup)
    (h' : l' < 32) :
    (ls.foldl (fun g l => g.writeV r n l (f l)) g).vreg r' l' =
      if l' ∈ ls ∧ r' = r then (f l').setWidth 32 else if l' ∈ ls ∧ n = 2 ∧ r' = r + 1 then (f l' >>> 32).setWidth 32
      else g.vreg r' l' := by
  induction ls generalizing g with
  | nil => simp
  | cons a ls ih =>
    have hn' := List.nodup_cons.mp hn
    rw [List.foldl_cons, ih _ (fun l hm => hl l (List.mem_cons_of_mem _ hm)) hn'.2,
      vreg_writeV _ _ (hl a (List.mem_cons_self ..)) h']
    by_cases h1 : l' = a
    · subst h1; simp [hn'.1]
    · simp [h1]

/-- A write of v registers leaves every other field. -/
theorem writeV_fields (g : Group) (r n l : Nat) (x : Word64) : g.writeV r n l x = { g with v := (g.writeV r n l x).v } := by
  unfold Group.writeV; split <;> rfl

theorem foldV_fields (ls : List Nat) (g : Group) (r n : Nat) (f : Nat → Word64) :
    ls.foldl (fun g l => g.writeV r n l (f l)) g = { g with v := (ls.foldl (fun g l => g.writeV r n l (f l)) g).v } := by
  induction ls generalizing g with
  | nil => rfl
  | cons a ls ih => rw [List.foldl_cons, ih, writeV_fields]

/-- A write of D leaves every field but the registers. -/
theorem write_fields (g : Group) (c : BitVec 8) (n : Nat) (sx : Bool) (act : LaneMask) (f : Nat → Word64) :
    g.write c n sx act f = { g with v := (g.write c n sx act f).v, s := (g.write c n sx act f).s, p := (g.write c n sx act f).p } := by
  unfold Group.write
  split
  · rw [foldV_fields]
  · split
    · rfl
    · split
      · unfold Group.setPred; split <;> rfl
      · rfl

theorem prec_of_recs {g g' : Group} (h : g'.recs = g.recs) (i : Nat) : g'.prec i = g.prec i := by simp [Group.prec, h]

theorem isV_not_isS {c : BitVec 8} (h : isV c = true) : isS c = false := by
  simp only [isV, decide_eq_true_eq, isS, Bool.and_eq_false_imp, decide_eq_false_iff_not, Nat.not_le] at *; omega
theorem isV_not_isP {c : BitVec 8} (h : isV c = true) : isP c = false := by
  simp only [isV, decide_eq_true_eq, isP, Bool.and_eq_false_imp, decide_eq_false_iff_not, Nat.not_le] at *; omega
theorem isS_not_isP {c : BitVec 8} (h : isS c = true) : isP c = false := by
  simp only [isS, Bool.and_eq_true, decide_eq_true_eq, isP, Bool.and_eq_false_imp, decide_eq_false_iff_not, Nat.not_le] at *; omega
theorem isS_not_isV {c : BitVec 8} (h : isS c = true) : isV c = false := by
  simp only [isV, isS, Bool.and_eq_true, decide_eq_true_eq, decide_eq_false_iff_not, Nat.not_le] at *; omega
theorem isP_not_isV {c : BitVec 8} (h : isP c = true) : isV c = false := by
  simp only [isV, isP, Bool.and_eq_true, decide_eq_true_eq, decide_eq_false_iff_not, Nat.not_le] at *; omega
theorem isP_not_isS {c : BitVec 8} (h : isP c = true) : isS c = false := by
  simp only [isS, isP, Bool.and_eq_true, decide_eq_true_eq, Bool.and_eq_false_imp, decide_eq_false_iff_not, Nat.not_le] at *; omega

theorem isP_sub_zero {c : BitVec 8} (h : isP c = true) : c.toNat - 0xF0 = 0 ↔ c = 0xF0 := by
  simp only [isP, Bool.and_eq_true, decide_eq_true_eq] at h
  constructor
  · intro h0; apply BitVec.eq_of_toNat_eq; simp; omega
  · rintro rfl; rfl

/-- What a write of D leaves in the registers. -/
theorem write_holds (g : Group) (d : BitVec 8) (n : Nat) (sx : Bool) (act : LaneMask) (v : Nat → Word64) :
    Holds (g.write d n sx act v) act d n sx v := by
  refine ⟨fun hv l hl ha => ?_, fun hs => ?_, fun hp l hl ha => ?_⟩
  · simp only [Group.write, hv, ↓reduceIte]
    have hm : l ∈ lanesOf act := mem_lanesOf.mpr ⟨hl, ha⟩
    constructor
    · rw [vreg_foldV _ _ _ (fun l h => (mem_lanesOf.mp h).1) (lanesOf_nodup _) hl]; simp [hm]
    · rintro rfl; rw [vreg_foldV _ _ _ (fun l h => (mem_lanesOf.mp h).1) (lanesOf_nodup _) hl]; simp [hm]
  · simp only [Group.write, isS_not_isV hs, hs, Bool.false_eq_true, ↓reduceIte, sreg_setSreg, widen]
  · simp only [Group.write, isP_not_isV hp, isP_not_isS hp, hp, Bool.false_eq_true, ↓reduceIte]
    rw [predBit_setPred _ _ _ _ _ hl]
    by_cases h0 : d = 0xF0
    · subst h0; simpa using predBit_zero g hl
    · have : d.toNat - 0xF0 ≠ 0 := fun h => h0 ((isP_sub_zero hp).mp h)
      simp only [this, ne_eq, not_false_eq_true, ha, and_self, ↓reduceIte, maskOf_getLsbD _ _ hl, List.mem_filter,
        mem_lanesOf, hl, true_and]
      have h1 : (d == 0xF0) = false := by simpa using h0
      rw [h1, Bool.false_or]; simp

/-- A write of D leaves the other registers. -/
theorem write_keep (g : Group) (d : BitVec 8) (n : Nat) (sx : Bool) (act : LaneMask) (v : Nat → Word64) (hn : 1 ≤ n) :
    KeepRegs g (g.write d n sx act v) act d n := by
  refine ⟨fun r l hl h => ?_, fun r h => ?_, fun r l hl h => ?_⟩
  · unfold Group.write
    split
    · rename_i hv
      rw [vreg_foldV _ _ _ (fun l h => (mem_lanesOf.mp h).1) (lanesOf_nodup _) hl]
      have : ∀ a, mem_lanesOf (m := act) (l := a) = mem_lanesOf := fun _ => rfl
      by_cases ha : l ∈ lanesOf act
      · have ha' := (mem_lanesOf.mp ha).2
        have h1 : r ≠ d.toNat := fun he => h ⟨hv, by omega, by omega, ha'⟩
        have h2 : ¬(n = 2 ∧ r = d.toNat + 1) := fun he => h ⟨hv, by omega, by omega, ha'⟩
        simp [h1, h2]
      · simp [ha]
    · split
      · rfl
      · split
        · unfold Group.setPred; split <;> rfl
        · rfl
  · unfold Group.write
    split
    · rw [foldV_fields]; rfl
    · split
      · rename_i hs; rw [sreg_setSreg]; simp only [ite_eq_right_iff]; intro hr; exact absurd ⟨hs, hr⟩ h
      · split
        · unfold Group.setPred; split <;> rfl
        · rfl
  · unfold Group.write
    split
    · rw [foldV_fields]; rfl
    · split
      · rfl
      · split
        · rename_i hp
          rw [predBit_setPred _ _ _ _ _ hl]
          simp only [hp, ↓reduceIte, List.mem_singleton] at h
          simp only [ite_eq_right_iff]; intro hh; exact absurd ⟨hh.1, hh.2.2⟩ h
        · rfl

/-! ### Instructions that write one destination -/

theorem holds_of_regs {g g' : Group} {act : LaneMask} {d : BitVec 8} {n : Nat} {sx : Bool} {v : Nat → Word64}
    (hv : g'.v = g.v) (hs : g'.s = g.s) (hp : g'.p = g.p) (h : Holds g act d n sx v) : Holds g' act d n sx v := by
  simpa [Holds, Group.vreg, Group.sreg, Group.predBit, Group.pred, hv, hs, hp] using h

theorem keep_of_regs {g g1 g' : Group} {act : LaneMask} {d : BitVec 8} {n : Nat}
    (hv : g'.v = g1.v) (hs : g'.s = g1.s) (hp : g'.p = g1.p) (h : KeepRegs g g1 act d n) : KeepRegs g g' act d n := by
  simpa [KeepRegs, KeepV, KeepS, KeepP, Group.vreg, Group.sreg, Group.predBit, Group.pred, hv, hs, hp] using h

/-- A result by a function of the group that keeps its records and every field but registers and generators. -/
theorem result_moves {s : State} {e : Iss} (hg : s.group e.core e.slot = some e.g) (hq : e.q = e.g.prec e.prec) (f : Group → Group)
    (hf : f e.g = { e.g with v := (f e.g).v, s := (f e.g).s, p := (f e.g).p, gens := (f e.g).gens }) :
    ∃ t g', s.issued.result e f = t ∧ OnlyGroup s.issued t e.core e.slot g' ∧ Moves e.g g' e.prec e.q.place.after ∧
      g'.v = (f e.g).v ∧ g'.s = (f e.g).s ∧ g'.p = (f e.g).p ∧ g'.gens = (f e.g).gens := by
  have hr : (f e.g).recs = e.g.recs := by rw [hf]
  refine ⟨_, _, rfl, result_onlyGroup hg f, ⟨⟨?_, fun j hj => ?_⟩, ?_⟩, rfl, rfl, rfl, rfl⟩
  · rw [prec_settled, prec_setPrec]; simp [PathAt, prec_of_recs hr, hq]
  · rw [prec_settled, prec_setPrec]; simp [hj, prec_of_recs hr]
  · simp only [settled, Group.setPrec]
    rw [hf]

/-- An instruction that computes D. -/
theorem compute_computes {i : Instr} {guard : BitVec 4} {d : BitVec 8} {n : Nat} {sx : Bool} {v : Iss → Nat → Word64}
    (hn : 1 ≤ n) (h : ∀ s, exec i s = s.compute i guard d n sx v) : Computes i guard d n sx (fun _ => v) := by
  intro s e hr
  have hi := issuer_eq hr.1
  obtain ⟨t, g', ht, ho, hm, h1, h2, h3, h4⟩ := result_moves hi.1 hi.2.1 (fun g => g.write d n sx e.act (v e))
    (by rw [write_fields])
  refine ⟨t, g', ?_, ho, hm, ?_, holds_of_regs h1 h2 h3 (write_holds ..), keep_of_regs h1 h2 h3 (write_keep _ _ _ _ _ _ hn)⟩
  · rw [h, State.compute, issue_always hr, ht]
  · rw [h4, write_fields]

end Sys2Proof.Machine
end

