-- ==== Sys2Proof/Tests/Slice0.lean ====
section
/-! SUPPORT. Sys2Proof/Tests/Slice0.lean: the author's own tests: decoding of words written out from the spec's encodings,
ill-formed terms, single steps, and for every statement with hypotheses a state and operands that meet them. -/

open Sys2Proof Sys2Proof.Machine Sys2Proof.Claim

namespace Sys2Proof.Tests

set_option Elab.async false

/-! ### States for the tests -/

/-- The state after reset with a word placed and fetched: the word is about to issue (R241). -/
def ready (w : Word64) : State :=
  match (State.reset.placeWord w).issuing with
  | r :: rest =>
    match ({ State.reset.placeWord w with issuing := rest } : State).fetchNext r with
    | .error s => s
    | .ok (_, s) => { s with cur := some r }
  | [] => State.reset

/-- Does the word issue, and come to its own effect? -/
def runsB (i : Instr) (guard : BitVec 4) (s : State) : Bool :=
  match s.issuer guard, shapeOf i with
  | some e, some x => e.act != 0 && x.legal && x.inBudget e.g.budget && decide (e.g.waits x = .go) && !s.afterAcquire e i && s.issued.backOk e
  | _, _ => false

theorem runs_of_runsB {i : Instr} {guard : BitVec 4} {s : State} (h : runsB i guard s = true) : ∃ e, Runs i guard e s := by
  unfold runsB at h
  split at h
  · rename_i e x he hx
    simp only [Bool.and_eq_true, bne_iff_ne, ne_eq, decide_eq_true_eq, Bool.not_eq_true'] at h
    exact ⟨e, he, h.1.1.1.1.1, x, hx, h.1.1.1.1.2, h.1.1.1.2, h.1.1.2, h.1.2, h.2⟩
  · cases h

/-- GUARD of the words of the tests: 9 (not p1) in the first, 0 in the others. -/
def guardOf : Instr → BitVec 4
  | .iadd f => f.guard
  | _ => 0

/-! ### Decoding of words written out from the spec's encodings -/

/-- Words of the family, from their encodings (R70, R79, R80), and what they stand for. -/
def wordsInteger : List (Word64 × Instr) := [
  (0, .nop),
  (0x0104050600090008, .iadd ⟨4, 5, 6, 0, 0, 9, 0, 8⟩),
  (0x02040506F1100100, .iaddc ⟨4, 5, 6, 0xF1, 1, 0, 0, 0x100⟩),
  (0x0304050600400180, .iadds ⟨4, 5, 6, 0, 4, 0, 0, 0x180⟩),
  (0x0404050600600000, .isub ⟨4, 5, 6, 0, 6, 0, 0, 0⟩),
  (0x05040608F8300080, .isubb ⟨4, 6, 8, 0xF8, 3, 0, 0, 0x80⟩),
  (0x0604050600100088, .isubs ⟨4, 5, 6, 0, 1, 0, 0, 0x88⟩),
  (0x0704050600500000, .imul ⟨4, 5, 6, 0, 5, 0, 0, 0⟩),
  (0x0804060800300000, .imulh ⟨4, 6, 8, 0, 3, 0, 0, 0⟩),
  (0x0904050607000000, .imad ⟨4, 5, 6, 7, 0, 0, 0, 0⟩),
  (0x0A04060708100000, .imadw ⟨4, 6, 7, 8, 1, 0, 0, 0⟩),
  (0x0B04050607600080, .idot4 ⟨4, 5, 6, 7, 6, 0, 0, 0x80⟩),
  (0x0C04050607400000, .idot2 ⟨4, 5, 6, 7, 4, 0, 0, 0⟩),
  (0x0D04050000000008, .iabs ⟨4, 5, 0, 0, 0, 0, 0, 8⟩),
  (0x0E04060000200000, .ineg ⟨4, 6, 0, 0, 2, 0, 0, 0⟩),
  (0x0F04050600700000, .imin ⟨4, 5, 6, 0, 7, 0, 0, 0⟩),
  (0x1004050600000000, .imax ⟨4, 5, 6, 0, 0, 0, 0, 0⟩),
  (0x1104050600100080, .iavg ⟨4, 5, 6, 0, 1, 0, 0, 0x80⟩),
  (0x12F2050600000280, .icmp ⟨0xF2, 5, 6, 0, 0, 0, 0, 0x280⟩)]

/-- Words of the family, from their encodings (R70, R79, R80), and what they stand for. -/
def wordsBits : List (Word64 × Instr) := [
  (0x13040506F2100000, .isel ⟨4, 5, 6, 0xF2, 1, 0, 0, 0⟩),
  (0x1404050000100000, .ipopc ⟨4, 5, 0, 0, 1, 0, 0, 0⟩),
  (0x1504060000200000, .iclz ⟨4, 6, 0, 0, 2, 0, 0, 0⟩),
  (0x1604050000100000, .ibrev ⟨4, 5, 0, 0, 1, 0, 0, 0⟩),
  (0x1704050600000000, .ibfx ⟨4, 5, 6, 0, 0, 0, 0, 0⟩),
  (0x1804050607100000, .ibfi ⟨4, 5, 6, 7, 1, 0, 0, 0⟩),
  (0x19C4C5F800100000, .bitAnd ⟨0xC4, 0xC5, 0xF8, 0, 1, 0, 0, 0⟩),
  (0x1A04050600108000, .bitOr ⟨4, 5, 6, 0, 1, 0, 4, 0⟩),
  (0x1B04050600104000, .bitXor ⟨4, 5, 6, 0, 1, 0, 2, 0⟩),
  (0x1C04050000100000, .bitNot ⟨4, 5, 0, 0, 1, 0, 0, 0⟩),
  (0x1D04050600100000, .andn ⟨4, 5, 6, 0, 1, 0, 0, 0⟩),
  (0x1E04050600100008, .shl ⟨4, 5, 6, 0, 1, 0, 0, 8⟩),
  (0x1F04050600100000, .shr ⟨4, 5, 6, 0, 1, 0, 0, 0⟩),
  (0x2004050600000000, .sra ⟨4, 5, 6, 0, 0, 0, 0, 0⟩),
  (0x2104050600100000, .rotl ⟨4, 5, 6, 0, 1, 0, 0, 0⟩),
  (0x2204050607102000, .fshl ⟨4, 5, 6, 7, 1, 0, 1, 0⟩),
  (0x2304050607100000, .perm ⟨4, 5, 6, 7, 1, 0, 0, 0⟩),
  (0x2404060800300180, .lea ⟨4, 6, 8, 0, 3, 0, 0, 0x180⟩)]

/-- Words of the family, from their encodings (R70, R79, R80), and what they stand for. -/
def wordsImmediate : List (Word64 × Instr) := [
  (0x280405FFFFFFFF00, .iaddi ⟨4, 5, 0xFFFFFFFF, 0, 0⟩),
  (0x2904050000000310, .imuli ⟨4, 5, 3, 1, 0⟩),
  (0x2A04050F0F0F0F10, .andi ⟨4, 5, 0xF0F0F0F, 1, 0⟩),
  (0x2B04050000000140, .ori ⟨4, 5, 1, 4, 0⟩),
  (0x2C04058000000010, .xori ⟨4, 5, 0x80000000, 1, 0⟩),
  (0x2D04050000001F10, .shli ⟨4, 5, 0x1F, 1, 0⟩),
  (0x2E04050000000110, .shri ⟨4, 5, 1, 1, 0⟩),
  (0x2F04050000000400, .srai ⟨4, 5, 4, 0, 0⟩),
  (0x3011050000000700, .icmpi ⟨0x11, 5, 7, 0, 0⟩),
  (0x3104001234567810, .movi ⟨4, 0, 0x12345678, 1, 0⟩)]

/-- Words of the family, from their encodings (R70, R79, R80), and what they stand for. -/
def wordsFloat : List (Word64 × Instr) := [
  (0x4004050600800000, .fadd ⟨4, 5, 6, 0, 8, 0, 0, 0⟩),
  (0x4104050600900001, .fsub ⟨4, 5, 6, 0, 9, 0, 0, 1⟩),
  (0x4204050600A00002, .fmul ⟨4, 5, 6, 0, 0xA, 0, 0, 2⟩),
  (0x4304050607800003, .ffma ⟨4, 5, 6, 7, 8, 0, 0, 3⟩),
  (0x4404050600800000, .fmin ⟨4, 5, 6, 0, 8, 0, 0, 0⟩),
  (0x4504050600900000, .fmax ⟨4, 5, 6, 0, 9, 0, 0, 0⟩),
  (0x4604050600A00000, .fminm ⟨4, 5, 6, 0, 0xA, 0, 0, 0⟩),
  (0x4704050600800000, .fmaxm ⟨4, 5, 6, 0, 8, 0, 0, 0⟩),
  (0x48F3050600800380, .fcmp ⟨0xF3, 5, 6, 0, 8, 0, 0, 0x380⟩),
  (0x4904050000800000, .fclass ⟨4, 5, 0, 0, 8, 0, 0, 0⟩),
  (0x4A04050000800001, .frcp ⟨4, 5, 0, 0, 8, 0, 0, 1⟩),
  (0x4B04050000800000, .frsq ⟨4, 5, 0, 0, 8, 0, 0, 0⟩),
  (0x4C04050000800000, .fsqrt ⟨4, 5, 0, 0, 8, 0, 0, 0⟩),
  (0x4D04050600800002, .fdiv ⟨4, 5, 6, 0, 8, 0, 0, 2⟩),
  (0x4E04050000800000, .fexp2 ⟨4, 5, 0, 0, 8, 0, 0, 0⟩),
  (0x4F04050000800000, .flog2 ⟨4, 5, 0, 0, 8, 0, 0, 0⟩),
  (0x5004050000800000, .fsin ⟨4, 5, 0, 0, 8, 0, 0, 0⟩),
  (0x5104050000800000, .fcos ⟨4, 5, 0, 0, 8, 0, 0, 0⟩),
  (0x5204050000800000, .ftanh ⟨4, 5, 0, 0, 8, 0, 0, 0⟩),
  (0x5304050000800000, .fsigm ⟨4, 5, 0, 0, 8, 0, 0, 0⟩),
  (0x5404050000800003, .frnd ⟨4, 5, 0, 0, 8, 0, 0, 3⟩),
  (0x5504050600800000, .fscale ⟨4, 5, 6, 0, 8, 0, 0, 0⟩),
  (0x5604050000900000, .ffrac ⟨4, 5, 0, 0, 9, 0, 0, 0⟩),
  (0x5704050607A00001, .fdot2 ⟨4, 5, 6, 7, 0xA, 0, 0, 1⟩)]

/-- Words of the family, from their encodings (R70, R79, R80), and what they stand for. -/
def wordsConvert : List (Word64 × Instr) := [
  (0x6004050000C00C01, .cvt ⟨4, 5, 0, 0, 0xC, 0, 0, 0xC01⟩),
  (0x6104050000900404, .cvtsr ⟨4, 5, 0, 0, 9, 0, 0, 0x404⟩),
  (0x6204050607C00C00, .pack ⟨4, 5, 6, 7, 0xC, 0, 0, 0xC00⟩),
  (0x6304060000D00800, .unpk ⟨4, 6, 0, 0, 0xD, 0, 0, 0x800⟩),
  (0x6404060000E00024, .qmx ⟨4, 6, 0, 0, 0xE, 0, 0, 0x24⟩),
  (0x6504060000E00031, .dqmx ⟨4, 6, 0, 0, 0xE, 0, 0, 0x31⟩),
  (0x7004050000100000, .mov ⟨4, 5, 0, 0, 1, 0, 0, 0⟩),
  (0x7104000300300000, .movs ⟨4, 0, 3, 0, 3, 0, 0, 0⟩),
  (0x7211C20000000000, .movx ⟨0x11, 0xC2, 0, 0, 0, 0, 0, 0⟩),
  (0x7304050600100980, .shfl ⟨4, 5, 6, 0, 1, 0, 0, 0x980⟩),
  (0x74C3F10000000200, .vote ⟨0xC3, 0xF1, 0, 0, 0, 0, 0, 0x200⟩),
  (0x7504060000300000, .matchLanes ⟨4, 6, 0, 0, 3, 0, 0, 0⟩),
  (0x7604050000800F00, .fold ⟨4, 5, 0, 0, 8, 0, 0, 0xF00⟩),
  (0x77F2F1F800000300, .plop ⟨0xF2, 0xF1, 0xF8, 0, 0, 0, 0, 0x300⟩)]

/-- Words of the family, from their encodings (R70, R79, R80), and what they stand for. -/
def wordsControl : List (Word64 × Instr) := [
  (0x800000FFFFFFFE00, .br ⟨0, 0, 0xFFFFFFFE, 0, 0⟩),
  (0x8100000000000400, .brd ⟨0, 0, 4, 0, 0⟩),
  (0x8200C40000000080, .brx ⟨0, 0xC4, 0, 0, 0, 0, 0, 0x80⟩),
  (0x83C1000000001000, .call ⟨0xC1, 0, 0x10, 0, 0⟩),
  (0x84C1060000000000, .callx ⟨0xC1, 6, 0, 0, 0, 0, 0, 0⟩),
  (0x8500C10000000000, .ret ⟨0, 0xC1, 0, 0, 0, 0, 0, 0⟩),
  (0x8600C20000000500, .loop ⟨0, 0xC2, 5, 0, 0⟩),
  (0x8709000000000300, .loopi ⟨9, 0, 3, 0, 0⟩),
  (0x8802000000000000, .lbrk ⟨2, 0, 0, 0, 0⟩),
  (0x89020A0000000700, .spawn ⟨2, 0xA, 7, 0, 0⟩),
  (0x8A010A0000000700, .winnow ⟨1, 0xA, 7, 0, 0⟩),
  (0x8B00000000000000, .exit ⟨0, 0, 0, 0, 0, 0, 0, 0⟩),
  (0x8C00000000000000, .yield ⟨0, 0, 0, 0, 0, 0, 0, 0⟩)]

/-- Words of the family, from their encodings (R70, R79, R80), and what they stand for. -/
def wordsMemory : List (Word64 × Instr) := [
  (0x90040800FF800B20, .ldc ⟨4, 8, 0, 0xFF8, 0, 0, 5, 2, 1, 0⟩),
  (0x91000804004008C0, .stc ⟨0, 8, 4, 4, 0, 0, 4, 1, 2, 0⟩),
  (0x9204090000100200, .lds ⟨4, 9, 0, 1, 0, 0, 1, 0, 0, 0⟩),
  (0x930009080000CC00, .sts ⟨0, 9, 8, 0, 0, 6, 6, 0, 0, 0⟩),
  (0x94080A0000000C00, .ldm ⟨8, 0xA, 0, 0, 0, 0, 6, 0, 0, 0⟩),
  (0x95000A0400000400, .stm ⟨0, 0xA, 4, 0, 0, 0, 2, 0, 0, 0⟩),
  (0x9604C40000000600, .ldw ⟨4, 0xC4, 0, 0, 0, 0, 3, 0, 0, 0⟩),
  (0x9700C40400000800, .stw ⟨0, 0xC4, 4, 0, 0, 0, 4, 0, 0, 0⟩),
  (0x9800080000300200, .cctl ⟨0, 8, 0, 3, 0, 0, 1, 0, 0, 0⟩),
  (0xA0040806000003E0, .atc ⟨4, 8, 6, 0, 0, 0, 1, 3, 3, 0⟩),
  (0xA104090600000421, .ats ⟨4, 9, 6, 0, 0, 0, 2, 0, 1, 1⟩),
  (0xA204080600000520, .att ⟨4, 8, 6, 0, 0, 0, 2, 2, 1, 0⟩),
  (0xA300000000000080, .fence ⟨0, 0, 0, 0, 0, 0, 0, 1, 0, 0⟩),
  (0xA400000000000180, .fencesc ⟨0, 0, 0, 0, 0, 0, 0, 3, 0, 0⟩),
  (0xA500000000000000, .tfence ⟨0, 0, 0, 0, 0, 0, 0, 0, 0, 0⟩),
  (0xA6C6C4F800000B23, .waita ⟨0xC6, 0xC4, 0xF8, 0, 0, 0, 5, 2, 1, 3⟩),
  (0xA700080A00000000, .slinit ⟨0, 8, 0xA, 0, 0, 0, 0, 0, 0, 0⟩)]

/-- Words of the family, from their encodings (R70, R79, R80), and what they stand for. -/
def wordsSync : List (Word64 × Instr) := [
  (0xB000C1C200000000, .binit ⟨0, 0xC1, 0xC2, 0, 0, 0, 0, 0⟩),
  (0xB100C1C200000000, .bexp ⟨0, 0xC1, 0xC2, 0, 0, 0, 0, 0⟩),
  (0xB2F1C1F800000000, .barv ⟨0xF1, 0xC1, 0xF8, 0, 0, 0, 0, 0⟩),
  (0xB300C1C200000000, .bwait ⟨0, 0xC1, 0xC2, 0, 0, 0, 0, 0⟩),
  (0xB4F1C1C200000000, .btest ⟨0xF1, 0xC1, 0xC2, 0, 0, 0, 0, 0⟩),
  (0xB500000000000100, .tbar ⟨0, 0, 0, 0, 0, 0, 0, 0x100⟩),
  (0xB600000000000000, .gbar ⟨0, 0, 0, 0, 0, 0, 0, 0⟩),
  (0xB700C1C200000080, .qinit ⟨0, 0xC1, 0xC2, 0, 0, 0, 0, 0x80⟩),
  (0xB800C10000000080, .qpush ⟨0, 0xC1, 0, 0, 0, 0, 0, 0x80⟩),
  (0xB9C1000000000080, .qpop ⟨0xC1, 0, 0, 0, 0, 0, 0, 0x80⟩),
  (0xBA00C10000000880, .qallow ⟨0, 0xC1, 0, 0, 0, 0, 0, 0x880⟩),
  (0xBB00C10000000180, .cvinit ⟨0, 0xC1, 0, 0, 0, 0, 0, 0x180⟩),
  (0xBCC1C20000000000, .acalloc ⟨0xC1, 0xC2, 0, 0, 0, 0, 0, 0⟩),
  (0xBD00C20000000000, .acfree ⟨0, 0xC2, 0, 0, 0, 0, 0, 0⟩)]

/-- Words of the family, from their encodings (R70, R79, R80), and what they stand for. -/
def wordsEngines : List (Word64 × Instr) := [
  (0xC0030000C4900880, .mma ⟨3, 0, 0, 0xC4, 9, 0, 0, 0x880⟩),
  (0xC103C900C4E00110, .mmasp ⟨3, 0xC9, 0, 0xC4, 0xE, 0, 0, 0x110⟩),
  (0xC2020000C4A00080, .mmv ⟨2, 0, 0, 0xC4, 0xA, 0, 0, 0x80⟩),
  (0xC3020000C4000080, .mldt ⟨2, 0, 0, 0xC4, 0, 0, 0, 0x80⟩),
  (0xC402000000000080, .mzero ⟨2, 0, 0, 0, 0, 0, 0, 0x80⟩),
  (0xC5020000C4A00082, .mepi ⟨2, 0, 0, 0xC4, 0xA, 0, 0, 0x82⟩),
  (0xD0C1C2F8C4001000, .tcpy ⟨0xC1, 0xC2, 0xF8, 0xC4, 0, 0, 0, 0x1000⟩),
  (0xD1F8C2F8C4001000, .tcpo ⟨0xF8, 0xC2, 0xF8, 0xC4, 0, 0, 0, 0x1000⟩),
  (0xD2C1C208C4001080, .gcpy ⟨0xC1, 0xC2, 8, 0xC4, 0, 0, 0, 0x1080⟩),
  (0xD3C1C208C4000100, .scpy ⟨0xC1, 0xC2, 8, 0xC4, 0, 0, 0, 0x100⟩),
  (0xD4F8C2F8C4001000, .wcpy ⟨0xF8, 0xC2, 0xF8, 0xC4, 0, 0, 0, 0x1000⟩),
  (0xD5F8C2F8C4000000, .drain ⟨0xF8, 0xC2, 0xF8, 0xC4, 0, 0, 0, 0⟩)]

/-- Words of the family, from their encodings (R70, R79, R80), and what they stand for. -/
def wordsSystem : List (Word64 × Instr) := [
  (0xE000F800C4800500, .cstep ⟨0, 0xF8, 0, 0xC4, 8, 0, 0, 0x500⟩),
  (0xE100C20000000000, .cabort ⟨0, 0xC2, 0, 0, 0, 0, 0, 0⟩),
  (0xE200F8C2C4000080, .npost ⟨0, 0xF8, 0xC2, 0xC4, 0, 0, 0, 0x80⟩),
  (0xE3C1C2C300000000, .launch ⟨0xC1, 0xC2, 0xC3, 0, 0, 0, 0, 0⟩),
  (0xF000000000004D00, .trap ⟨0, 0, 0x4D, 0, 0⟩),
  (0xF100000000000080, .tret ⟨0, 0, 0, 0, 0, 0, 0, 0x80⟩),
  (0xF200000000000500, .brkpt ⟨0, 0, 5, 0, 0⟩),
  (0xF300C20000000000, .pkeyw ⟨0, 0xC2, 0, 0, 0, 0, 0, 0⟩),
  (0xF4C1C2C300000280, .capsub ⟨0xC1, 0xC2, 0xC3, 0, 0, 0, 0, 0x280⟩)]

theorem test_decode_integer : ∀ e ∈ wordsInteger, (decode e.1).toOption = some e.2 ∧ encode e.2 = some e.1 ∧ e.2.wellFormed = true := by decide

theorem test_decode_bits : ∀ e ∈ wordsBits, (decode e.1).toOption = some e.2 ∧ encode e.2 = some e.1 ∧ e.2.wellFormed = true := by decide

theorem test_decode_immediate : ∀ e ∈ wordsImmediate, (decode e.1).toOption = some e.2 ∧ encode e.2 = some e.1 ∧ e.2.wellFormed = true := by decide

theorem test_decode_float : ∀ e ∈ wordsFloat, (decode e.1).toOption = some e.2 ∧ encode e.2 = some e.1 ∧ e.2.wellFormed = true := by decide

theorem test_decode_convert : ∀ e ∈ wordsConvert, (decode e.1).toOption = some e.2 ∧ encode e.2 = some e.1 ∧ e.2.wellFormed = true := by decide

theorem test_decode_control : ∀ e ∈ wordsControl, (decode e.1).toOption = some e.2 ∧ encode e.2 = some e.1 ∧ e.2.wellFormed = true := by decide

theorem test_decode_memory : ∀ e ∈ wordsMemory, (decode e.1).toOption = some e.2 ∧ encode e.2 = some e.1 ∧ e.2.wellFormed = true := by decide

theorem test_decode_sync : ∀ e ∈ wordsSync, (decode e.1).toOption = some e.2 ∧ encode e.2 = some e.1 ∧ e.2.wellFormed = true := by decide

theorem test_decode_engines : ∀ e ∈ wordsEngines, (decode e.1).toOption = some e.2 ∧ encode e.2 = some e.1 ∧ e.2.wellFormed = true := by decide

theorem test_decode_system : ∀ e ∈ wordsSystem, (decode e.1).toOption = some e.2 ∧ encode e.2 = some e.1 ∧ e.2.wellFormed = true := by decide

/-! ### Each of these words issues and comes to its own effect in a state of one group -/

theorem witness_runs_integer : ∀ e ∈ wordsInteger, ∃ x, Runs e.2 (guardOf e.2) x (ready e.1) :=
  fun e he => runs_of_runsB ((by decide +kernel : ∀ e ∈ wordsInteger, runsB e.2 (guardOf e.2) (ready e.1) = true) e he)

theorem witness_runs_bits : ∀ e ∈ wordsBits, ∃ x, Runs e.2 (guardOf e.2) x (ready e.1) :=
  fun e he => runs_of_runsB ((by decide +kernel : ∀ e ∈ wordsBits, runsB e.2 (guardOf e.2) (ready e.1) = true) e he)

theorem witness_runs_immediate : ∀ e ∈ wordsImmediate, ∃ x, Runs e.2 (guardOf e.2) x (ready e.1) :=
  fun e he => runs_of_runsB ((by decide +kernel : ∀ e ∈ wordsImmediate, runsB e.2 (guardOf e.2) (ready e.1) = true) e he)

theorem witness_runs_float : ∀ e ∈ wordsFloat, ∃ x, Runs e.2 (guardOf e.2) x (ready e.1) :=
  fun e he => runs_of_runsB ((by decide +kernel : ∀ e ∈ wordsFloat, runsB e.2 (guardOf e.2) (ready e.1) = true) e he)

theorem witness_runs_convert : ∀ e ∈ wordsConvert, ∃ x, Runs e.2 (guardOf e.2) x (ready e.1) :=
  fun e he => runs_of_runsB ((by decide +kernel : ∀ e ∈ wordsConvert, runsB e.2 (guardOf e.2) (ready e.1) = true) e he)

theorem witness_runs_control : ∀ e ∈ wordsControl, ∃ x, Runs e.2 (guardOf e.2) x (ready e.1) :=
  fun e he => runs_of_runsB ((by decide +kernel : ∀ e ∈ wordsControl, runsB e.2 (guardOf e.2) (ready e.1) = true) e he)

theorem witness_runs_memory : ∀ e ∈ wordsMemory, ∃ x, Runs e.2 (guardOf e.2) x (ready e.1) :=
  fun e he => runs_of_runsB ((by decide +kernel : ∀ e ∈ wordsMemory, runsB e.2 (guardOf e.2) (ready e.1) = true) e he)

theorem witness_runs_sync : ∀ e ∈ wordsSync, ∃ x, Runs e.2 (guardOf e.2) x (ready e.1) :=
  fun e he => runs_of_runsB ((by decide +kernel : ∀ e ∈ wordsSync, runsB e.2 (guardOf e.2) (ready e.1) = true) e he)

theorem witness_runs_engines : ∀ e ∈ wordsEngines, ∃ x, Runs e.2 (guardOf e.2) x (ready e.1) :=
  fun e he => runs_of_runsB ((by decide +kernel : ∀ e ∈ wordsEngines, runsB e.2 (guardOf e.2) (ready e.1) = true) e he)

theorem witness_runs_system : ∀ e ∈ wordsSystem, ∃ x, Runs e.2 (guardOf e.2) x (ready e.1) :=
  fun e he => runs_of_runsB ((by decide +kernel : ∀ e ∈ wordsSystem, runsB e.2 (guardOf e.2) (ready e.1) = true) e he)

/-! ### Witnesses: states and operands that meet the hypotheses of the statements

`meets i s p`: the word i issues in s, comes to its own effect, and the rest p of the hypotheses holds for what it sees. -/

/-- The word issues in the state, comes to its own effect, and p holds. -/
def meets (i : Instr) (guard : BitVec 4) (s : State) (p : Iss → Bool) : Bool := runsB i guard s && (s.issuer guard).any p

/-- Does an address hold a block header for core 0, context 0? -/
def headerAt (s : State) (t : Word64) : Bool :=
  match s.fetchWord 0 0 t with
  | (.word w, _) => w.extractLsb' 58 6 == 0b111110#6
  | _ => false

/-- The word that core 0 fetches for context 0. -/
def fetched (s : State) (t : Word64) : Option Word64 :=
  match s.fetchWord 0 0 t with
  | (.word w, _) => some w
  | _ => none

/-- The state with the group of core 0, slot 0 changed. -/
def withGroup (s : State) (f : Group → Group) : State := s.onGroup 0 0 f

/-- The second word of the placed block. -/
def pc0 : Word64 := placedHeader + 8

/-- A header with LEN 1. -/
def hdr : Word64 := placedHeaderWord

/-- A word ready, with further words after it. -/
def readyCode (w : Word64) (more : List Word64) : State :=
  (ready w).onCore 0 (fun k => { k with l1 := tabMod k.l1 (l1Key 0 (ptrLineNo placedHeader)) (fun y =>
    { y with data := BitVec.ofNat 1024 ((hdr :: w :: more).foldr (fun x a => x.toNat + a * 2 ^ 64) 0) }) })

/-- The placed launch changed. -/
def withLaunch (s : State) (f : Launch → Launch) : State := { s with launches := tabMod s.launches 0 f }

/-- The placed launch with a trap block. -/
def withTrap (s : State) : State := withLaunch s (fun l => { l with trapb := placedHeader })

/-- Only lane 0 has a one in p1. -/
def lane0 (s : State) : State := withGroup s (fun g => g.setPred 1 (BitVec.allOnes 32) 1)

/-- The path of record 0 changed. -/
def withPath (s : State) (f : PathRec → PathRec) : State := withGroup s (fun g => g.setPrec 0 (f (g.prec 0)))

/-- Core 0 changed. -/
def withCore (s : State) (f : Core → Core) : State := s.onCore 0 f

/-- A value in an s register. -/
def withS (s : State) (r : Nat) (x : Word64) : State := withGroup s (fun g => g.setSreg r x)

/-! #### Encoding -/

theorem witness_DecodeOfEncode : encode (.movi ⟨0xC5, 0, 0xFFFFFFFE, 2, 0xB⟩) = some 0x31C500FFFFFFFE2B := by decide

theorem witness_ExactDecoding : (decode 0x31C500FFFFFFFE2B).toOption = some (.movi ⟨0xC5, 0, 0xFFFFFFFE, 2, 0xB⟩) := by decide

/-- A header; the opcode 0x00; the first opcode after a run that R79 assigns, and the last one; the last that it assigns. -/
theorem witness_DecodeRejects : (0xF8#8 ++ 0#56 : Word64).extractLsb' 58 6 = 0b111110#6 ∧ (1 : Word64).extractLsb' 56 8 = 0#8 ∧
    ((0x25#8 ++ 0#56 : Word64).extractLsb' 56 8).toNat ∉ assignedOpcodes ∧ ((0xFF#8 ++ 0#56 : Word64).extractLsb' 56 8).toNat ∉ assignedOpcodes ∧
    ((0xF4#8 ++ 0#56 : Word64).extractLsb' 56 8).toNat ∈ assignedOpcodes := by decide

/-! One step -/

/-- At a header; inside a block; with an event next; with nothing outstanding. -/
theorem witness_StepRunsDecoded :
    ((State.reset.placeWord 0).issuing = [⟨0, 0, 0⟩] ∧ headerAt (State.reset.placeWord 0) placedHeader = true ∧
      fetched (State.reset.placeWord 0) (placedHeader + 8) = some 0) ∧
    ((withGroup (State.reset.placeWord 0) (fun g => g.setPrec 0 { g.prec 0 with
        place := ⟨pc0, placedHeader, 1, [], 0, [], false⟩ })).issuing = [⟨0, 0, 0⟩] ∧
      fetched (withGroup (State.reset.placeWord 0) (fun g => g.setPrec 0 { g.prec 0 with place := ⟨pc0, placedHeader, 1, [], 0, [], false⟩ })) pc0 = some 0) ∧
    (({ State.reset with agenda := [.deviceTick] } : State).issuing = [] ∧ State.reset.agenda = []) := by decide +kernel

/-- A header where the block's first word should be. -/
theorem witness_HeaderWithinBlock :
    fetched (State.reset.placeWord 0xF804000000000000) pc0 = some 0xF804000000000000 ∧
    (0xF804000000000000 : Word64).extractLsb' 58 6 = 0b111110#6 ∧
    (withGroup (State.reset.placeWord 0xF804000000000000) (fun g => g.setPrec 0 { g.prec 0 with
      place := ⟨pc0, placedHeader, 1, [], 0, [], false⟩ })).issuing = [⟨0, 0, 0⟩] := by decide +kernel

/-- A word that does not decode; a header whose LEN is 0. -/
theorem witness_IssueStops_undecodable :
    fetched (State.reset.placeWord 0x2500000000000000) pc0 = some 0x2500000000000000 ∧ (decode 0x2500000000000000).toOption = none ∧
    (0xF800000000000000 : Word64).extractLsb' 50 8 = 0#8 := by decide +kernel

/-- An illegal word; a word over the budget; a trap on an empty source; a first register EMPTY-LOCAL; one EMPTY-REMOTE. -/
theorem witness_IssueStops :
    ((ready 0x0104050600000001).issuer 0).isSome ∧ (shapeOf (.iadd ⟨4, 5, 6, 0, 0, 0, 0, 1⟩)).all (fun x => !x.legal) = true ∧
    ((withGroup (ready 0x0104050600000000) (fun g => { g with budget := 4 })).issuer 0).any (fun e =>
      (shapeOf (.iadd ⟨4, 5, 6, 0, 0, 0, 0, 0⟩)).any (fun x => x.legal && !x.inBudget e.g.budget)) = true ∧
    ((withGroup (ready 0x0104050600008000) (fun g => g.setFe 5 .emptyRemote)).issuer 0).any (fun e =>
      (shapeOf (.iadd ⟨4, 5, 6, 0, 0, 0, 4, 0⟩)).any (fun x => x.legal && x.inBudget e.g.budget && e.act != 0 &&
        x.srcs.head?.any (fun r => r.trap && r.regs.any (fun c => e.g.feOf c != .full)))) = true ∧
    ([FE.emptyLocal, .emptyRemote].all (fun st => ((withGroup (ready 0x0104050600000000) (fun g => g.setFe 5 st)).issuer 0).any (fun e =>
      (shapeOf (.iadd ⟨4, 5, 6, 0, 0, 0, 0, 0⟩)).any (fun x => x.legal && x.inBudget e.g.budget && e.act != 0 &&
        x.srcs.all (fun r => !r.trap) && (x.srcs.flatMap Src.regs).head? == some 5 && e.g.feOf 5 == st)))) = true := by decide +kernel

/-- No lane Active: the guard p1 is zero in every lane. -/
theorem witness_NoActiveLane : ((ready 0x0104050600010000).issuer 1).any (fun e => e.act == 0 &&
    (shapeOf (.iadd ⟨4, 5, 6, 0, 0, 1, 0, 0⟩)).any (fun x => x.legal && x.inBudget e.g.budget)) = true := by decide +kernel

/-! Values -/

/-- A packed type, its last element; shift counts at and below the width. -/
theorem witness_IntegerElementwise : (7 : BitVec 4).toNat ≤ 7 ∧ 3 < tyElems 7 := by decide

/-- A comparison on the last element of a packed type; an illegal condition, TYPE and predicate. -/
theorem witness_Comparisons : (7 : BitVec 4).toNat ≤ 7 ∧ 3 < tyElems 7 ∧ 7 < (8 : BitVec 4).toNat ∧ 5 < fieldOf (0x300 : BitVec 13) 7 3 ∧
    (isP 0xF0 = true ∧ 4 ≤ (4 : BitVec 4).toNat) ∧ ((ready 0x12F0050600800000).issuer 0).isSome = true := by decide +kernel

theorem witness_BitsShiftsSelection : 32 ≤ ((32 : Word64).setWidth 32).toNat ∧ ((31 : Word64).setWidth 32).toNat < 32 := by decide

/-- A code of each side of infinity; values that the arithmetic of special values names. -/
theorem witness_RoundingAndSpecials : (1 : Nat) < 2 ^ f16Fmt.width ∧ f16Fmt.decode 1 = .fin false 1 (-24) ∧ f32Fmt.decode 0x7FC00000 = .nan := by decide

theorem witness_TranscendentalStochastic : f32Fmt.decode 0x7F800001 = .nan ∧ 0x7F800001 < 2 ^ 32 := by decide

/-- Each clause of the values of sources, at the ends of its range. -/
theorem witness_SourcesAndMoves : (0xBF : BitVec 8).toNat ≤ 0xBF ∧ 0xC0 ≤ (0xC0 : BitVec 8).toNat ∧ (0xEF : BitVec 8).toNat ≤ 0xEF ∧
    0xF0 ≤ (0xF0 : BitVec 8).toNat ∧ (0xF7 : BitVec 8).toNat ≤ 0xF7 := by decide

/-- MOV of 32 bits to an s register. -/
theorem witness_SourcesAndMoves_upper : meets (.mov ⟨0xC3, 0xC2, 0, 0, 1, 0, 0, 0⟩) 0 (ready 0x70C3C20000100000)
    (fun _ => isS 0xC3 && tyRegs 1 == 1) = true := by decide +kernel

theorem witness_LaneExchange : (0 : BitVec 13).toNat >>> 7 = 0 ∧ meets (.shfl ⟨4, 5, 6, 0, 1, 0, 0, 0⟩) 0 (ready 0x7304050600100000)
    (fun e => e.act.getLsbD 31) = true := by decide +kernel

/-- PLOP into p0 with zero as a source; each of its illegal cases. -/
theorem witness_PredicateLogic : meets (.plop ⟨0xF0, 0xF8, 0xF7, 0, 0, 0, 0, 0x400⟩) 0 (ready 0x77F0F8F700000400) (fun _ => true) = true ∧
    isP 0x04 = false ∧ (isP 0xF9 = false ∧ (0xF9 : BitVec 8) ≠ 0xF8) ∧ fieldOf (0x800 : BitVec 13) 11 2 ≠ 0 ∧ fieldOf (1 : BitVec 13) 0 7 ≠ 0 ∧
    (1 : BitVec 3) ≠ 0 ∧ ((ready 0x77F0F8F700002400).issuer 0).isSome = true := by decide +kernel

/-! Traps and control -/

def faultAt (s : State) (cls : Nat) (lanes : LaneMask) : State := (s.recordFault 0 0 ⟨cls, 0, 0, 0, false, 0, 0, 0, pc0, pc0, lanes, 0⟩).1

/-- A path of a launch with a trap block, not in trap, all of whose threads fault. -/
theorem witness_TrapEntry : ((faultAt (withTrap (ready 0)) 1 (BitVec.allOnes 32)).group 0 0).any (fun g =>
    (faultAt (withTrap (ready 0)) 1 (BitVec.allOnes 32)).trapBlock g.launch != 0 && (g.prec 0).trap == none &&
      (g.prec 0).lanes == BitVec.allOnes 32) = true := by decide +kernel

theorem witness_TrapInstructions :
    meets (.trap ⟨0, 0, 77, 0, 0⟩) 0 (ready 0xF000000000004D00) (fun _ => true) = true ∧
    meets (.brkpt ⟨0, 0, 5, 0, 0⟩) 0 (ready 0xF200000000000500) (fun e =>
      ((faultAt (ready 0xF200000000000500).issued 18 e.act).group 0 0).any (fun g => (g.prec 0).lanes == e.act)) = true ∧
    meets (.tret ⟨0, 0, 0, 0, 0, 0, 0, 128⟩) 0 (withPath (ready 0xF100000000000080) (fun q =>
      { q with trap := some ⟨pc0, placedHeader, 1, [], 0, [], false⟩ })) (fun e => e.q.trap.isSome && e.act == e.q.lanes) = true ∧
    meets (.tret ⟨0, 0, 0, 0, 0, 0, 0, 128⟩) 0 (ready 0xF100000000000080) (fun e => e.q.trap == none) = true := by decide +kernel

/-- OFF32 2: the word after the next is a header; the same through an s register. -/
theorem witness_Transfers :
    (meets (.br ⟨0, 0, 2, 0, 0⟩) 0 (readyCode 0x8000000000000200 [0, hdr]) (fun e => e.act == e.q.lanes && e.q.place.word == pc0) = true ∧
      headerAt (readyCode 0x8000000000000200 [0, hdr]).issued (pc0 + 16) = true ∧ (pc0 + 16).extractLsb' 62 2 = 0#2 ∧
      (pc0 + 16).extractLsb' 0 3 = 0#3) ∧
    (meets (.brx ⟨0, 0xC4, 0, 0, 0, 0, 0, 0⟩) 0 (withS (readyCode 0x8200C40000000000 [0, hdr]) 4 (pc0 + 16)) (fun e =>
        (List.range 32).all (fun l => e.g.read 0xC4 2 l == pc0 + 16) && e.act == e.q.lanes) = true ∧
      headerAt (withS (readyCode 0x8200C40000000000 [0, hdr]) 4 (pc0 + 16)).issued (pc0 + 16) = true) ∧
    (meets (.call ⟨0xC1, 0, 2, 0, 0⟩) 0 (readyCode 0x83C1000000000200 [0, hdr]) (fun e => e.act == e.q.lanes) = true ∧
      headerAt (readyCode 0x83C1000000000200 [0, hdr]).issued (pc0 + 16) = true) ∧
    (meets (.callx ⟨0xC1, 0xC4, 0, 0, 0, 0, 0, 0⟩) 0 (withS (readyCode 0x84C1C40000000000 [0, hdr]) 4 (pc0 + 16)) (fun e =>
        (List.range 32).all (fun l => e.g.read 0xC4 2 l == pc0 + 16) && e.act == e.q.lanes) = true ∧
      headerAt (withS (readyCode 0x84C1C40000000000 [0, hdr]) 4 (pc0 + 16)).issued (pc0 + 16) = true) ∧
    (meets (.ret ⟨0, 0xC4, 0, 0, 0, 0, 0, 0⟩) 0 (withS (readyCode 0x8500C40000000000 [0, hdr]) 4 (pc0 + 16)) (fun e =>
        (List.range 32).all (fun l => e.g.read 0xC4 2 l == pc0 + 16) && e.act == e.q.lanes) = true ∧
      headerAt (withS (readyCode 0x8500C40000000000 [0, hdr]) 4 (pc0 + 16)).issued (pc0 + 16) = true) := by decide +kernel

/-- After a taken BR: its record stands at the target's header. -/
theorem witness_Transfers_waits : (transferWord (.br ⟨0, 0, 2, 0, 0⟩) = some false ∧ transferWord (.brx ⟨0, 0xC4, 0, 0, 0, 0, 0, 0⟩) = some true) ∧
    (match exec (.br ⟨0, 0, 2, 0, 0⟩) (readyCode 0x8000000000000200 [0, hdr]) with
      | .next t => headerAt t placedHeader && (t.group 0 0).any (fun g => (g.prec 0).lanes != 0 && (g.prec 0).place.word == (g.prec 0).place.block &&
          (g.prec 0).place.word != pc0 + 8)
      | _ => false) = true := by decide +kernel

theorem witness_Transfers_offset : Offset pc0 (pc0 + 16) 2 ∧ Offset pc0 (pc0 + 8) 1 := by
  constructor <;> exact ⟨by decide, by decide⟩

/-- BRD, BR and CALL taken by lane 0 alone, under p1. -/
theorem witness_Divergence :
    meets (.brd ⟨0, 0, 2, 0, 1⟩) 1 (lane0 (readyCode 0x8100000000000201 [0, hdr])) (fun e => e.act != e.q.lanes && e.prec == 0 &&
      [1, 2, 3].all (fun k => e.g.prec k == PathRec.free) && e.q.place.after.word != pc0 + 16 && e.g.splits == [] &&
      !(lane0 (readyCode 0x8100000000000201 [0, hdr])).groupIssues e.core e.slot &&
      headerAt (lane0 (readyCode 0x8100000000000201 [0, hdr])).issued (pc0 + 16) &&
      headerAt (lane0 (readyCode 0x8100000000000201 [0, hdr])).issued e.q.place.block) = true ∧
    meets (.br ⟨0, 0, 2, 0, 1⟩) 1 (lane0 (readyCode 0x8000000000000201 [0, hdr])) (fun e => e.act != e.q.lanes &&
      ((tabFind (ready 0).launches e.g.launch).map Launch.demote) == some false) = true ∧
    meets (.call ⟨0xC1, 0, 2, 0, 1⟩) 1 (lane0 (readyCode 0x83C1000000000201 [0, hdr])) (fun e => e.act != e.q.lanes) = true := by
  decide +kernel

/-- A frame of the placed path. -/
def frame : Frame := ⟨1, pc0 + 8, pc0 + 16, 0⟩

theorem witness_Loops :
    (meets (.loop ⟨0, 0xC2, 3, 0, 0⟩) 0 (withS (readyCode 0x8600C20000000300 [hdr, 0, hdr]) 2 5) (fun e => e.act == e.q.lanes &&
        e.q.place.frames == []) = true ∧
      headerAt (withS (readyCode 0x8600C20000000300 [hdr, 0, hdr]) 2 5).issued (pc0 + 8) = true ∧
      headerAt (withS (readyCode 0x8600C20000000300 [hdr, 0, hdr]) 2 5).issued (pc0 + 24) = true) ∧
    meets (.loopi ⟨0, 0, 3, 0, 0⟩) 0 (readyCode 0x8700000000000300 [hdr, 0, hdr]) (fun e => e.act == e.q.lanes) = true ∧
    (meets (.lbrk ⟨1, 0, 0, 0, 0⟩) 0 (withPath (readyCode 0x8801000000000000 [0, hdr]) (fun q => { q with place := { q.place with frames := [frame] } }))
        (fun e => e.act == e.q.lanes && e.q.place.frames == [] ++ frame :: []) = true ∧ frame.depth = 0 ∧
      headerAt (readyCode 0x8801000000000000 [0, hdr]).issued frame.exit = true) ∧
    (frame.depth = (⟨pc0 + 8, placedHeader, 1, [frame], 0, [], false⟩ : Place).depth ∧ (pc0 + 8) + 8 = frame.exit ∧ frame.count = 1) := by decide +kernel

theorem witness_ThreadsEndAndBegin :
    meets (.exit ⟨0, 0, 0, 0, 0, 1, 0, 0⟩) 1 (lane0 (ready 0x8B00000000010000)) (fun e => e.act != e.q.lanes) = true ∧
    meets (.exit ⟨0, 0, 0, 0, 0, 0, 0, 0⟩) 0 (ready 0x8B00000000000000) (fun e => e.act == e.q.lanes &&
      [1, 2, 3].all (fun k => e.g.prec k == PathRec.free) && tabSorted e.g.recs) = true ∧
    meets (.exit ⟨0, 0, 0, 0, 0, 0, 0, 0⟩) 0 (withGroup (withPath (ready 0x8B00000000000000) (fun q => { q with lanes := 1 }))
      (fun g => g.setPrec 1 { PathRec.free with state := .running, lanes := 2 })) (fun e => e.act == e.q.lanes && (e.g.prec 1).lanes != 0) = true ∧
    meets (.spawn ⟨2, 10, 2, 0, 0⟩) 0 (readyCode 0x89020A0000000200 [0, hdr]) (fun e =>
      headerAt (readyCode 0x89020A0000000200 [0, hdr]).issued (pc0 + 16) &&
      ((readyCode 0x89020A0000000200 [0, hdr]).core 0).barnRoom (laneCount e.act) (bundleLines 2 0)) = true ∧
    meets (.winnow ⟨1, 10, 2, 0, 1⟩) 1 (lane0 (readyCode 0x8A010A0000000201 [0, hdr])) (fun e =>
      headerAt (lane0 (readyCode 0x8A010A0000000201 [0, hdr])).issued (pc0 + 16) && e.q.lanes &&& ~~~e.act != 0 &&
      ((readyCode 0x8A010A0000000201 [0, hdr]).core 0).barnRoom (laneCount e.act) (bundleLines 2 0)) = true := by decide +kernel

/-! Memory -/

/-- A place in the line that core 0 caches. -/
def cached : Word64 := placedHeader + 64

/-- The checks of an access pass in every lane; p says the rest of their outcome. -/
def checksPass (i : Instr) (a : BitVec 8) (delta : Int) (s : State) (p : Iss → MemOp → List LaneAccess → State → Bool) : Bool :=
  (s.issuer 0).any (fun e => (memOpOf i).any (fun o =>
    let r := s.issued.checkLanes e i o a delta (fun _ => 0)
    r.1.bad == [] && r.1.ok != [] && p e o r.1.ok r.2))

/-- The placed team with 256 bytes of scratchpad and two tiles. -/
def withTeam (s : State) : State :=
  withCore s (fun k => { k with teams := tabMod k.teams 0 (fun t => { t with bytes := 256, tiles := [5, 9], acmin := 1, acmax := 4 }) })

theorem witness_LinesAndResults_lines : ((ready 0).l1Find 0 0 cached).any (fun y =>
    !(pkrRefuses ((ready 0).ctx 0).pkr y.key .write) && ptrOff cached % 128 + 64 ≤ 128) = true := by decide +kernel

/-- A load to a v register that has been performed in lane 31. -/
def doneLoad : State := withCore (ready 0) (fun k => { k with
  accs := [(7, ⟨0, 0, 0, .ldc ⟨4, 0xC4, 0, 0, 0, 0, 4, 0, 0, 0⟩, ⟨pc0, placedHeader, 1, [], 0, [], false⟩, [], true, [(31, 5)], false, 0⟩)] })

/-- A load of the cached line by lane 31 that has not been performed. -/
def waitingLoad : Access :=
  ⟨0, 0, 0, .ldc ⟨4, 0xC4, 0, 0, 0, 0, 4, 0, 0, 0⟩, ⟨pc0, placedHeader, 1, [], 0, [], false⟩, [⟨31, cached, 0, 0, none⟩], false, [], false, 0⟩

/-- The placed group with that load under the number 7. -/
def loadDue : State := withCore (ready 0) (fun k => { k with accs := [(7, waitingLoad)] })

/-- An access to be performed; one that the load before it holds back; an access that does not exist. -/
theorem witness_LinesAndResults_waiting :
    ((tabFind (loadDue.core 0).accs 7).any (fun a => !a.performed && (memOpOf a.instr).any (fun o =>
      !(loadDue.core 0).accessBlocked 7 a && !loadDue.missesNow 0 a o && (let r := loadDue.askRemote 0 7 a o
        let h := r.2.askHomes 0 7 a o
        let d := h.2.2.performLanes 0 a.ctx a.slot 0 o a.lanes
        r.1 == [] && h.1 == [] && h.2.1.isEmpty && d.1.faults == [] && d.1.waits == [] && (d.2.group 0 0).any (fun g => g.lanes != 0 &&
          (List.range 4).all (fun k => (g.prec k).reason != 7 && (g.prec k).reason != 8)))))) = true ∧
    ((withCore loadDue (fun k => { k with accs := [(7, waitingLoad), (8, waitingLoad)] })).core 0).accessBlocked 8 waitingLoad = true ∧
    tabFind (loadDue.core 0).accs 8 = none := by decide +kernel

theorem witness_LinesAndResults_results : (tabFind (doneLoad.core 0).accs 7).any (fun a => a.performed && (memOpOf a.instr).any (fun o =>
    isV o.d && o.bytes ≤ 4 && o.dstRegs == [4])) = true ∧ (doneLoad.group 0 0).any (fun g => g.lanes != 0 &&
      (List.range 4).all (fun k => (g.prec k).reason != 7 && (g.prec k).reason != 8)) = true := by decide +kernel

/-- A load that leaves the core (its line is not in L1); one that hits; a store of scratchpad; an atomic of it. -/
theorem witness_MemoryIssue :
    (runsB (.ldc ⟨4, 0xC4, 0, 0, 0, 0, 4, 0, 0, 0⟩) 0 (withS (ready 0x9004C40000000800) 4 (placedHeader + 4096)) = true ∧
      checksPass (.ldc ⟨4, 0xC4, 0, 0, 0, 0, 4, 0, 0, 0⟩) 0xC4 0 (withS (ready 0x9004C40000000800) 4 (placedHeader + 4096)) (fun e o ls s1 =>
        !(ls.all (fun l => s1.isLocal e o l.ptr))) = true) ∧
    (runsB (.ldc ⟨4, 0xC4, 0, 0, 0, 0, 4, 0, 0, 0⟩) 0 (withS (ready 0x9004C40000000800) 4 cached) = true ∧
      checksPass (.ldc ⟨4, 0xC4, 0, 0, 0, 0, 4, 0, 0, 0⟩) 0xC4 0 (withS (ready 0x9004C40000000800) 4 cached) (fun e o ls s1 =>
        ls.all (fun l => s1.isLocal e o l.ptr) && !(s1.core 0).accessPending 0 && o.kind == .read &&
        ((s1.onGroup 0 0 (fun g => o.dstRegs.foldl (fun g r => g.setFe r .emptyLocal) g)).performLanes 0 0 0 0 o ls).1.faults == []) = true) ∧
    (runsB (.sts ⟨0, 9, 8, 255, 0, 0, 0, 0, 0, 0⟩) 0 (withTeam (ready 0x930009080FF00000)) = true ∧
      checksPass (.sts ⟨0, 9, 8, 255, 0, 0, 0, 0, 0, 0⟩) 9 255 (withTeam (ready 0x930009080FF00000)) (fun e o ls s1 =>
        ls.all (fun l => s1.isLocal e o l.ptr) && o.kind == .write && (s1.performLanes 0 0 0 0 o ls).1.faults == []) = true) ∧
    (runsB (.ats ⟨4, 9, 6, 0, 0, 0, 2, 0, 1, 0⟩) 0 (withTeam (ready 0xA104090600000420)) = true ∧
      checksPass (.ats ⟨4, 9, 6, 0, 0, 0, 2, 0, 1, 0⟩) 9 0 (withTeam (ready 0xA104090600000420)) (fun e o ls s1 =>
        ls.all (fun l => s1.isLocal e o l.ptr) && o.kind == .atomic && (s1.performLanes 0 0 0 0 o ls).1.faults == []) = true) := by decide +kernel

/-- The accesses of lanes in the scratchpad of the placed team. -/
theorem witness_ScratchAndAtomics : (memOpOf (.lds ⟨4, 9, 0, 0, 0, 0, 4, 0, 0, 0⟩)).any (fun o => o.sp == .scratch && !o.wide && o.kind == .read) = true ∧
    (memOpOf (.sts ⟨0, 9, 8, 0, 0, 0, 4, 0, 0, 0⟩)).any (fun o => o.sp == .scratch && !o.wide && o.kind == .write) = true ∧
    (memOpOf (.ats ⟨4, 9, 6, 0, 0, 0, 2, 0, 1, 0⟩)).any (fun o => o.sp == .scratch && !o.wide && o.kind == .atomic) = true ∧
    (tabFind ((ready 0).core 0).teams 0).isSome = true := by decide +kernel

/-- The state with the record woken with an answer. -/
def answered (s : State) (v : Word64) : State := withPath s (fun q => { q with answer := some v })

/-- A TFENCE that waits: an ATT of its group is outstanding. -/
def tensorOut (s : State) : State := withCore s (fun k => { k with
  accs := [(7, ⟨0, 0, 0, .att ⟨4, 8, 6, 0, 0, 0, 2, 2, 1, 0⟩, ⟨pc0, placedHeader, 1, [], 0, [], false⟩, [⟨0, 0, 0, 0, none⟩], false, [], false, 0⟩)] })

theorem witness_FencesAndWaits :
    meets (.cctl ⟨0, 0, 0, 0, 0, 0, 3, 0, 0, 0⟩) 0 (ready 0x9800000000000600) (fun _ => !((ready 0).core 0).accessPending 0) = true ∧
    (meets (.cctl ⟨0, 0xC4, 0, 0, 0, 0, 1, 0, 0, 0⟩) 0 (withS (ready 0x9800C40000000200) 4 cached) (fun _ => true) = true ∧
      ((withS (ready 0x9800C40000000200) 4 cached).issuer 0).any (fun e => ((withS (ready 0x9800C40000000200) 4 cached).issued.checkLanes e
        (.cctl ⟨0, 0xC4, 0, 0, 0, 0, 1, 0, 0, 0⟩) ⟨.control, .read, 1, 0, 0, false, 0, none, 0xF8⟩ 0xC4 0 (fun _ => 0)).1.bad == []) = true) ∧
    meets (.fence ⟨0, 0, 0, 0, 0, 0, 0, 0, 0, 0⟩) 0 (ready 0xA300000000000000) (fun _ => true) = true ∧
    meets (.fence ⟨0, 0, 0, 0, 0, 0, 0, 1, 0, 0⟩) 0 (ready 0xA300000000000080) (fun _ => true) = true ∧
    meets (.fencesc ⟨0, 0, 0, 0, 0, 0, 0, 2, 0, 0⟩) 0 (answered (ready 0xA400000000000100) 0) (fun e => e.q.answer != none) = true ∧
    meets (.tfence ⟨0, 0, 0, 0, 0, 0, 0, 0, 0, 0⟩) 0 (ready 0xA500000000000000) (fun e => !((ready 0).core 0).tensorPending e.slot) = true ∧
    meets (.tfence ⟨0, 0, 0, 0, 0, 0, 0, 0, 0, 0⟩) 0 (tensorOut (ready 0xA500000000000000)) (fun e =>
      ((tensorOut (ready 0xA500000000000000)).core 0).tensorPending e.slot && e.q.answer == none) = true ∧
    ([0, 1].all (fun c => meets (.waita ⟨0xC6, 0xC4, 0xF8, 0, 0, 0, 4, 0, 1, c⟩) 0 (withS (ready (0xA6C6C4F800000820 ||| c.zeroExtend 64)) 4 cached) (fun e =>
      let s := withS (ready (0xA6C6C4F800000820 ||| c.zeroExtend 64)) 4 cached
      let o : MemOp := ⟨.control, .read, 4, 1, 0, false, 4, none, 0xC6⟩
      let r := s.issued.checkLanes e (.waita ⟨0xC6, 0xC4, 0xF8, 0, 0, 0, 4, 0, 1, c⟩) o 0xC4 0 (fun _ => 0)
      r.1.bad == [] && !o.wide && r.1.ok.any (fun a => (r.2.waitRead e o a.ptr).toOption.any (fun v => v.1 == 0)))) = true) := by decide +kernel

/-! Barriers, queues, convergence registers, accumulators -/

/-- The placed team with a barrier object at offset 16 with target 64. -/
def withBarAt (s : State) (phn : Nat) : State :=
  withCore (withTeam s) (fun k => (k.markBar 16 true).setBar 16 ⟨0, 0, 0, 64, phn, 0, 0, false⟩)

/-- A store of the scratchpad to the bytes of a barrier object, and one beside it. -/
theorem witness_ScratchAndAtomics_marked : ((withBarAt (ready 0) 3).core 0).barrierIn 31 1 = true ∧
    ((withBarAt (ready 0) 3).core 0).barrierIn 32 4 = false := by decide +kernel

theorem witness_BarrierObjects_words :
    (meets (.binit ⟨0, 0xC1, 0xC2, 0, 0, 0, 0, 0⟩) 0 (withS (withS (withTeam (ready 0xB000C1C200000000)) 1 16) 2 1024) (fun e =>
        (e.g.read 0xC2 2 0).toNat == 1024 && e.g.read 0xC1 2 0 == 16) = true ∧
      ((withTeam (ready 0)).issued.barOperand 0 0 16 false |>.toOption) = some 16 ∧ ((withTeam (ready 0)).core 0).barBusy 0 16 16 = false) ∧
    meets (.binit ⟨0, 0xC1, 0, 0, 0, 0, 0, 128⟩) 0 (withS (withBarAt (ready 0xB000C10000000080) 3) 1 16) (fun e => e.g.read 0xC1 2 0 == 16) = true ∧
    (((withBarAt (ready 0) 3).issued.barOperand 0 0 16 true |>.toOption) = some 16 ∧
      (((withBarAt (ready 0) 3).core 0).barUpdate 16 (2 ^ 32 - 1) 0 0).isSome = true ∧
      (((withBarAt (ready 0) 3).core 0).barUpdate 16 8 0 32).isSome = true ∧ (((withBarAt (ready 0) 3).core 0).bar 16).phn = 3) ∧
    meets (.bexp ⟨0, 0xC1, 0xC2, 0, 0, 0, 0, 0⟩) 0 (withS (withBarAt (ready 0xB100C1C200000000) 3) 1 16) (fun _ => true) = true ∧
    meets (.barv ⟨0xF1, 0xC1, 0xC2, 0, 0, 0, 0, 0⟩) 0 (withS (withBarAt (ready 0xB2F1C1C200000000) 3) 1 16) (fun e => laneCount e.act == 32) = true ∧
    ([0, 3].all (fun n => meets (.bwait ⟨0, 0xC1, 0xC2, 0, 0, 0, 0, 0⟩) 0 (withS (withS (withBarAt (ready 0xB300C1C200000000) 3) 1 16) 2 n)
      (fun e => ((e.g.read 0xC2 2 0).setWidth 3 : BitVec 3).zeroExtend 64 == n))) = true ∧
    meets (.btest ⟨0xF1, 0xC1, 0xC2, 0, 0, 0, 0, 0⟩) 0 (withS (withBarAt (ready 0xB4F1C1C200000000) 3) 1 16) (fun _ => true) = true := by decide +kernel

/-- Updates that are refused at the limit and taken below it; an object whose phase ends, and one whose does not. -/
theorem witness_BarrierObjects_phases :
    (((withBarAt (ready 0) 7).core 0).bar 16).tgt = 64 ∧ (((withBarAt (ready 0) 7).core 0).barUpdate 16 0 0 65).isNone = true ∧
    (((withBarAt (ready 0) 7).core 0).barUpdate 16 0 0 64).isSome = true ∧
    ((withCore (withBarAt (ready 0) 7) (fun k => k.setBar 16 ⟨5, 5, 64, 64, 7, 0, 0, false⟩)).core 0).barMarked 16 = true ∧
    (((withCore (withBarAt (ready 0) 7) (fun k => k.setBar 16 ⟨5, 5, 64, 64, 7, 0, 0, false⟩)).core 0).bar 16).arr = 64 ∧
    (((withCore (withBarAt (ready 0) 7) (fun k => k.setBar 16 ⟨5, 4, 64, 64, 7, 0, 0, false⟩)).core 0).bar 16).land = 4 := by decide +kernel

theorem witness_TeamGridBarriers :
    (meets (.tbar ⟨0, 0, 0, 0, 0, 0, 0, 128⟩) 0 (ready 0xB500000000000080) (fun e => e.q.answer == none &&
        (tabFind (ready 0).launches e.g.launch).any (fun l => fieldOf (128 : BitVec 13) 7 4 < 2 ^ l.roles.length)) = true ∧
      meets (.tbar ⟨0, 0, 0, 0, 0, 0, 0, 128⟩) 0 (answered (ready 0xB500000000000080) 0) (fun e => e.q.answer != none) = true) ∧
    (meets (.gbar ⟨0, 0, 0, 0, 0, 0, 0, 0⟩) 0 (withLaunch (ready 0xB600000000000000) (fun l => { l with gbar := true })) (fun e =>
        e.q.answer == none && (((withLaunch (ready 0xB600000000000000) (fun l => { l with gbar := true })).issued.releaseCore 0 0).group 0 0).isSome) = true ∧
      meets (.gbar ⟨0, 0, 0, 0, 0, 0, 0, 0⟩) 0 (answered (withLaunch (ready 0xB600000000000000) (fun l => { l with gbar := true })) 0)
        (fun e => e.q.answer != none) = true) ∧
    meets (.gbar ⟨0, 0, 0, 0, 0, 0, 0, 0⟩) 0 (ready 0xB600000000000000) (fun e =>
      (tabFind (ready 0).launches e.g.launch).any (fun l => !l.gbar)) = true := by decide +kernel

/-- The placed team with queue 1 of two entries. -/
def withQ (s : State) (count : Nat) (prod : BitVec 4) : State := withCore (withTeam s) (fun k =>
  { k with teams := tabMod k.teams 0 (fun t => { t with queues := [(1, ⟨32, 1, 1, count, prod, true, [], [], []⟩)] }) })

/-- The next entry of the queue lies in a barrier object, and beside one. -/
theorem witness_Queues_marked : ((withCore (withQ (ready 0) 0 0) (fun k => k.markBar 32 true)).core 0).barrierIn (32 + 8 * ((1 + 0) % 2 ^ 1)) 8 = true ∧
    ((withQ (ready 0) 0 0).core 0).barrierIn (32 + 8 * ((1 + 0) % 2 ^ 1)) 8 = false := by decide +kernel

/-- QINIT; QPUSH to a full queue, with no allowance left, and with room; QPOP of an empty queue and of a full one; QALLOW. -/
theorem witness_Queues :
    meets (.qinit ⟨0, 0xC1, 0xC2, 0, 0, 0, 0, 128⟩) 0 (withS (withS (withTeam (ready 0xB700C1C200000080)) 1 240) 2 0x11002) (fun e =>
      (e.g.read 0xC1 2 0).toNat == 240 && (e.g.read 0xC2 2 0).extractLsb' 0 12 == BitVec.ofNat 12 (2 ^ 1)) = true ∧
    ([(2, 0), (0, 1), (1, 0)].all (fun c => meets (.qpush ⟨0, 0xC1, 0, 0, 0, 0, 0, 128⟩) 0 (withQ (ready 0xB800C10000000080) c.1 (BitVec.ofNat 4 c.2))
      (fun e => e.g.role == 0))) = true ∧
    ([0, 2].all (fun c => meets (.qpop ⟨0xC1, 0, 0, 0, 0, 0, 0, 128⟩) 0 (withQ (ready 0xB9C1000000000080) c 0) (fun _ => true))) = true ∧
    meets (.qallow ⟨0, 0xC1, 0, 0, 0, 0, 0, 128⟩) 0 (withS (withQ (ready 0xBA00C10000000080) 0 1) 1 0xFFFF) (fun _ => true) = true := by decide +kernel

theorem witness_CountsAndTiles :
    meets (.cvinit ⟨0, 0xC1, 0, 0, 0, 0, 0, 384⟩) 0 (withS (withTeam (ready 0xBB00C10000000180)) 1 1024) (fun e =>
      ((e.g.read 0xC1 2 0).setWidth 32 : BitVec 32).toNat == 1024) = true ∧
    meets (.acalloc ⟨0xC1, 0xC2, 0, 0, 0, 0, 0, 0⟩) 0 (answered (withTeam (ready 0xBCC1C20000000000)) 7) (fun e => e.q.answer == some 7) = true ∧
    ([0, 3].all (fun n => meets (.acalloc ⟨0xC1, 0xC2, 0, 0, 0, 0, 0, 0⟩) 0 (withS (withTeam (ready 0xBCC1C20000000000)) 2 n) (fun e =>
      e.q.answer == none && (tabFind ((withTeam (ready 0)).core 0).teams 0).any (fun t => t.tiles.length == 2 && t.acmax == 4)))) = true ∧
    meets (.acfree ⟨0, 0xC2, 0, 0, 0, 0, 0, 0⟩) 0 (withS (withTeam (ready 0xBD00C20000000000)) 2 1) (fun _ =>
      !((withTeam (ready 0)).tileBusy 0 0 1) && ((withTeam (ready 0)).core 0).acWait.isEmpty) = true := by decide +kernel

/-! The matrix engine -/

/-- The placed team with 65,536 bytes of scratchpad, four tiles and a convergence register. -/
def withCvs (s : State) (cv : Nat) (c : CvReg) : State :=
  withCore s (fun k => { k with teams := tabMod k.teams 0 (fun t => { t with bytes := 65536, tiles := [5, 9, 1, 2], acmax := 4, cvs := [(cv, c)] }) })

/-- The word signs register cv of a team that holds its tile, and its checks pass. -/
def signs (i : Instr) (f : FmtA) (w : Word64) (more : State → State) : Bool :=
  [32, 64].all (fun count =>
    let s := more (withCvs (ready w) (fieldOf f.mod 7 4) ⟨count, none, [], 0, []⟩)
    meets i 0 s (fun e => !(s.core 0).localPending 0 && (matrixWords f e).any (fun x => x.1 == i &&
      (s.issued.checksThenBar e (x.2.2.1 s.issued) x.2.2.2).toOption == some none) &&
      (tileOf i).all (fun n => n < 4) && laneCount e.act == 32))

/-- The cached translation of a line of a page of an object whose table's root is 0. -/
def xlatOf (obj line page pa mirror : Nat) : CachedXlat := ⟨0, 0, obj, 0, 0, line, page, 1, pa, 0, mirror, [], 0⟩

/-- Object 2: a tensor-space object. -/
def withTensor (s : State) : State :=
  { withCore s (fun k => { k with descs := ⟨0, 2, 0, BitVec.ofNat 256 (0x1F + 2 ^ 40 * 2 ^ 64)⟩ :: k.descs }) with
    roots := tabSet ⟨0, 0⟩ s.roots 0 { s.root 0 with onum := 8 } }

/-- The operand registers of an MMV: object 2, its vectors at offset 0, K 16, and a row pitch of 128. -/
def mmvRegs (s : State) : State := withS (withS (withTensor s) 4 0x4000020000000000) 6 (1 + 128 * 2 ^ 32)

/-- Each operation, with a signature that leaves the round open and one that completes it. -/
theorem witness_MatrixSigning :
    signs (.mma ⟨3, 0, 0, 0xC4, 9, 0, 0, 0x880⟩) ⟨3, 0, 0, 0xC4, 9, 0, 0, 0x880⟩ 0xC0030000C4900880 id = true ∧
    signs (.mmasp ⟨3, 0xC9, 0, 0xC4, 0xE, 0, 0, 0x110⟩) ⟨3, 0xC9, 0, 0xC4, 0xE, 0, 0, 0x110⟩ 0xC103C900C4E00110 id = true ∧
    signs (.mldt ⟨2, 0, 0, 0xC4, 0, 0, 0, 0x80⟩) ⟨2, 0, 0, 0xC4, 0, 0, 0, 0x80⟩ 0xC3020000C4000080 (fun s => withS s 4 (4 * 2 ^ 20)) = true ∧
    signs (.mzero ⟨2, 0, 0, 0, 0, 0, 0, 0x80⟩) ⟨2, 0, 0, 0, 0, 0, 0, 0x80⟩ 0xC402000000000080 id = true ∧
    signs (.mepi ⟨2, 0, 0, 0xC4, 0xA, 0, 0, 0x82⟩) ⟨2, 0, 0, 0xC4, 0xA, 0, 0, 0x82⟩ 0xC5020000C4A00082 (fun s => withS s 4 (128 * 2 ^ 20)) = true ∧
    signs (.mmv ⟨2, 0, 0, 0xC4, 0xA, 0, 0, 0x80⟩) ⟨2, 0, 0, 0xC4, 0xA, 0, 0, 0x80⟩ 0xC2020000C4A00080 mmvRegs = true := by decide +kernel

/-- A round of MZERO of tile 0 that completed at cycle 0. -/
def zeroRound : Round := ⟨⟨.mzero ⟨0, 0, 0, 0, 0, 0, 0, 0x80⟩, [], 0, 0, 0, BitVec.allOnes 32, ⟨pc0, placedHeader, 1, [], 0, [], false⟩⟩, BitVec.allOnes 32, 0, 0⟩

/-- The engine of core 0, with the round complete and four cycles gone by. -/
def roundDue : State := { withCvs (ready 0) 1 ⟨32, none, [], 0, [zeroRound]⟩ with clocks := [(0, 4)] }

/-- An operation at its end, with a tile element and two bytes to write. -/
def opDue : State := withCore (ready 0) (fun k => { k with
  matrix := ⟨some ⟨none, 0, 0, 0, false, none, zeroRound, 0, [(5 * 4096, 7)], [(256, [1, 2])], [], 5, none, none⟩, 0⟩ })

theorem witness_MatrixOperations_runs : (roundDue.startable 0 = some (0, 1, zeroRound) ∧ (tabFind (roundDue.core 0).teams 0).isSome = true ∧
    (roundDue.core 0).physTile 0 zeroRound.sig.instr = some 5) ∧
    ((opDue.core 0).matrix.running.any (fun op => op.ends ≤ opDue.clockOf 0 && !op.dead && op.run.isNone && op.events == [] && op.error == none &&
      op.credit == none && op.near == none && (writePieces op.scratchWrites).all (fun w => !(opDue.core 0).barrierIn w.1 w.2.length))) = true ∧
    (withCore opDue (fun k => { k with matrix := { k.matrix with running := k.matrix.running.map (fun op => { op with ends := 1 }) } })).clockOf 0 < 1 := by
  decide +kernel

/-- A run with no upset in its first chunk, and an MMA of f16. -/
theorem witness_MatrixOperations_chunks : (3 : BitVec 4) ≠ 14 ∧
    (∀ u ∈ (⟨0, 0, [], 0, 0, 0, 8, [], []⟩ : MmaRun).upsets, u.chunk ≠ 0) := by decide

/-- An MMV in slot 3, whose one row is mapped at physical address 0. -/
def nearDue : State := { withCore (mmvRegs (ready 0)) (fun k => { k with nears := [(3, ⟨0, 0, 0, false, 1,
    ⟨⟨.mmv ⟨2, 0, 0, 0xC4, 0xA, 0, 0, 0x80⟩, [0, 0, 0x4000020000000000, 0, 1 + 128 * 2 ^ 32], 0, 0, 0, 1, ⟨pc0, placedHeader, 1, [], 0, [], false⟩⟩, 1, 0, 0⟩,
    some 1, none, false, none, none, []⟩)] }) with xlats := [xlatOf 2 0 0 0 0], clocks := [(0, 1)] }

theorem witness_MatrixOperations_events :
    ((withPath (withTrap (ready 0)) (fun q => { q with matFaults := [⟨1, 5, 0, BitVec.allOnes 32⟩] })).group 0 0).any (fun g =>
      (g.prec 0).state == .running && (g.prec 0).matFaults == [⟨1, 5, 0, BitVec.allOnes 32⟩] && (g.prec 0).lanes == BitVec.allOnes 32 &&
      (g.prec 0).trap == none && (withTrap (ready 0)).trapBlock g.launch != 0) = true ∧
    (tabFind (nearDue.core 0).nears 3).any (fun x => nearDue.nearReady 0 3 x && x.tile == some 1 && x.bar == none && !x.dead &&
      (nearDue.nearRows 0 x (x.round.sig.vals.getD 2 0) (mmvShape (x.round.sig.vals.getD 4 0))).toOption.isSome) = true := by decide +kernel

/-! Copies -/

/-- A plan is found, with operations. -/
def planned (p : Planned) (q : CopyPlan → State → Bool) : Bool :=
  match p with
  | .ok p s => p.ops != [] && q p s
  | _ => false

/-- A word at work on a tensor map in its own line: one row of sixteen bytes of object 2. -/
def tileState (w : Word64) : State := withS (withTensor (withTeam (readyCode w [0, 0, 0, 0, 0, 0, 0x4000020000000000, 16, 0, 0, 0, 0, 16 + 2 ^ 47, 0]))) 4 cached

/-- A copy of the placed group. -/
def aCopy : Copy :=
  { ctx := 0, launch := 0, team := 0, slot := 0, prec := 0, instr := .wcpy ⟨0xC1, 0xC2, 0xF8, 0xC4, 0, 0, 0, 0⟩, pc := pc0, weight := 2,
    order := 1, time := 0, todo := [⟨[⟨.scratch 0, .scratch 128, 16⟩]⟩], flying := [], bar := none, credit := 16, error := none, written := 0,
    hold := none, marks := [], waitFull := false, waitDrain := false, serial := false, span := [], vals := [], count := 0, taken := [], descs := [] }

/-- TCPY, TCPO, WCPY of 16 bytes of scratchpad, and DRAIN of one line of object 2. -/
theorem witness_Copies_accepted :
    (let f : FmtA := ⟨0xC1, 0xC2, 0xF8, 0xC4, 0, 0, 0, 0⟩
     let room (_ : CopyPlan) (s1 : State) : Bool := (s1.group 0 0).isSome && (s1.core 0).copies.length == 0 && tabFree (s1.core 0).copies 128 == some 0
     meets (.tcpy f) 0 (tileState 0xD0C1C2F8C4000000) (fun e => planned ((tileState 0xD0C1C2F8C4000000).issued.planTile e f false) room) = true ∧
     meets (.tcpo f) 0 (tileState 0xD1C1C2F8C4000000) (fun e => planned ((tileState 0xD1C1C2F8C4000000).issued.planTile e f true) room) = true ∧
     (let s := withS (withS (withTeam (ready 0xD4C1C2F8C4000000)) 2 16) 5 128
      meets (.wcpy f) 0 s (fun e => planned (s.issued.planLinear e f) room) = true ∧
      (let t := withCore s (fun k => { k with copies := (List.range 128).map (fun j => (j, aCopy)) })
       meets (.wcpy f) 0 t (fun e => planned (t.issued.planLinear e f) (fun _ s1 => (s1.core 0).copies.length == 128)) = true)) ∧
     (let s := withS (withS (withS (withTensor (ready 0xD5C1C2F8C4000000)) 2 128) 4 0x4000020000000000) 5 0x4000020000001000
      meets (.drain f) 0 s (fun e => planned (s.issued.planDrain e f) room) = true)) ∧
    (let s := withS (withTeam (ready 0xD2C1C208C4000000)) 2 cached
     let f : FmtA := ⟨0xC1, 0xC2, 8, 0xC4, 0, 0, 0, 0⟩
     meets (.gcpy f) 0 s (fun e => !(e.desc f 0).getLsbD 63 && (let u := s.issued.unitLanes e f 4 false
       u.1 != [] && u.2.1 == [] && (u.2.2.group 0 0).isSome && tabFree (u.2.2.core 0).copies 128 == some 0)) = true) ∧
    (let s := withS (withTeam (ready 0xD3C1C208C4000000)) 2 cached
     let f : FmtA := ⟨0xC1, 0xC2, 8, 0xC4, 0, 0, 0, 0⟩
     meets (.scpy f) 0 s (fun e => !(e.desc f 0).getLsbD 63 && (let u := s.issued.unitLanes e f 4 true
       u.1 != [] && u.2.1 == [] && (u.2.2.group 0 0).isSome && tabFree (u.2.2.core 0).copies 128 == some 0)) = true) := by decide +kernel

/-- Copy c stands in slot 0 of core 0. -/
def withCopy (c : Copy) : State := withCore (withTensor (withTeam (ready 0))) (fun k => { k with copies := [(0, c)] })

/-- A DRAIN of line 0 of object 2 to its second page, which is mapped into the drain region. -/
def drainDue : State :=
  { withCopy { aCopy with waitDrain := true, todo := [⟨[⟨.ptr 0x4000020000000000, .ptr 0x4000020000001000, 128⟩]⟩] } with
    xlats := [xlatOf 2 0 0 0x100000 0, xlatOf 2 32 1 0x11000000000 0], carves := [(2, 2 ^ 20)] }

theorem witness_Copies_work :
    (let c := { aCopy with todo := [], flying := [⟨⟨[⟨.scratch 0, .scratch 128, 16⟩]⟩, none, 0, [], false⟩] }
     tabFind ((withCopy c).core 0).copies 0 = some c ∧ (c.flying.find? (fun f => !f.held && f.tags.isEmpty)).isSome = true ∧ c.hold = none) ∧
    (let c := { aCopy with waitFull := true, marks := [(0, 0, 5, 16)] }
     tabFind ((withCopy c).core 0).copies 0 = some c ∧ (∀ m ∈ c.marks, (withCopy c).feAt c.ctx m.1 m.2.1 m.2.2.1 = .full) ∧ ((withCopy c).group 0 0).isSome = true) ∧
    (tabFind (drainDue.core 0).copies 0).any (fun c => c.waitDrain && c.hold.isNone) = true ∧
    (match drainDue.drainLines 0 0 [] 0x4000020000000000 0x4000020000001000 128 with
      | .ok (ls, s1) => ls.all (fun l => paModule l.1 == s1.moduleId.toNat && s1.inDrain l.2) && !s1.linesBusy ls &&
          ((snapRuns (ls.map (fun l => (paLine l.1, paLine l.2)))).map (fun r => controllerOf (r.src * 128))).eraseDups.all (fun k =>
            decide (((snapRuns (ls.map (fun l => (paLine l.1, paLine l.2)))).filter (fun r => controllerOf (r.src * 128) = k)).length ≤ 8)) &&
          (s1.claimRuns 0 0 (snapRuns (ls.map (fun l => (paLine l.1, paLine l.2))))).any (fun s2 => (tabFind (s2.core 0).copies 0).isSome)
      | .error _ => false) = true ∧
    (tabFind ({ State.reset with migs := [(3, ⟨0, 128, 1, 0, true, true, false, [], none⟩)] } : State).migs 3).isSome = true := by decide +kernel

/-- An engine with one copy that contends: it takes the first of its two turns. -/
theorem witness_Copies_round :
    (let s := { withCopy aCopy with engines := [(0, ⟨5, 0, none⟩)], time := 6 }
     let s1 : State := { s with engines := tabPut s.engines 0 ⟨5, 0, some 1⟩ }
     s.heldOps 0 = [] ∧ tabFind s.engines 0 = some ⟨5, 0, none⟩ ∧ s.nextContender 0 5 = some (0, 0, aCopy) ∧
     ((s.contenders 0 5).map (fun x => x.2.2.weight)).foldl max 0 - 1 = 1 ∧ aCopy.todo.all (fun o => o.snapLine == none) = true ∧
     ((s1.onCore 0 (fun k => { k with rotate := aCopy.order })).landOp 0 0 [] ⟨[⟨.scratch 0, .scratch 128, 16⟩]⟩).toOption.isSome = true) := by
  decide +kernel

/-! Cycles, wakes, bins and teams -/

/-- A module at rest; a cluster at its nominal frequency, and one a step below; a group that has waited 8,192 cycles. -/
theorem witness_IssueCycles : (State.reset.cores = [] ∧ State.reset.ctxs = [] ∧ State.reset.qps = [] ∧ State.reset.queues = [] ∧
      State.reset.launches = [] ∧ State.reset.routers = [] ∧ State.reset.gang = none ∧ State.reset.gangHead = State.reset.gangTail ∧
      State.reset.migs = [] ∧ State.reset.dir = [] ∧ State.reset.lower = [] ∧ State.reset.tseq = State.reset.tdone) ∧
    80 ≤ tabGet 0 State.reset.clockAcc 0 + (State.reset.island 0).fcur ∧
    (let s : State := { State.reset with islands := [(0, ⟨79, 79, 0, false, false, 0⟩)] }
     tabGet 0 s.clockAcc 0 + (s.island 0).fcur < 80) ∧
    (let s := withGroup (State.reset.placeWord 0) (fun g => { g with wait := 8192 })
     (s.core 0).groups = [(0, { placedGroup with wait := 8192 })] ∧ s.group 0 0 = some { placedGroup with wait := 8192 } ∧
       s.readyRecs 0 (0, { placedGroup with wait := 8192 }) ≠ []) := by decide +kernel

/-- The word of the placed group waits on nothing; a word that takes a pipe. -/
theorem witness_IssueCycles_pipes :
    ((ready 0x0104050600100000).recReady 0 (0, ((ready 0x0104050600100000).group 0 0).getD placedGroup) 0 = true ∧
      (ready 0x0104050600100000).peekWord ⟨0, 0, 0⟩ = some (.iadd ⟨4, 5, 6, 0, 1, 0, 0, 0⟩) ∧
      (((ready 0x0104050600100000).group 0 0).getD placedGroup).waits (shapeInt2 ⟨4, 5, 6, 0, 1, 0, 0, 0⟩ 8) = .go) ∧
    (let k := (ready 0x0104050600100000).occupy ((ready 0x0104050600100000).core 0) 0 1 ⟨0, 0, 0⟩ 7
     tabGet 0 k.pipes 1 = 9 ∧ (tabFind k.groups 0).map (fun g => ((g.prec 0).ready, tabGet [] g.due 4)) = some (9, [(BitVec.allOnes 32, 11)])) := by decide +kernel

/-- A record of the placed group. -/
def recOf (st : RecState) (lanes : LaneMask) (stack : List Word64) : PathRec :=
  { PathRec.free with state := st, lanes := lanes, place := ⟨pc0, placedHeader, 1, [], 0, stack, false⟩ }

/-- The placed group with records 0 to 3. -/
def withRecs (s : State) (r0 r1 r2 r3 : PathRec) : State :=
  withGroup s (fun g => (((g.setPrec 0 r0).setPrec 1 r1).setPrec 2 r2).setPrec 3 r3)

/-- A woken path; a woken sub-group, with record 0 free and with record 1 free; two records at one header, whose depths are
equal and not; a record that waits alone. -/
theorem witness_WakeAndReconverge :
    (let s := withRecs (ready 0) { recOf .parked 1 [] with woken := true } PathRec.free PathRec.free PathRec.free
     (s.group 0 0).any (fun g => (g.prec 0).state == .parked && (g.prec 0).woken) = true ∧ (s.core 0).accs = [] ∧ (s.ctx 0).state = .resident) ∧
    ([true, false].all (fun z =>
      let s := withRecs (ready 0) (if z then PathRec.free else recOf .running 2 []) PathRec.free { recOf .parked 1 [] with woken := true } PathRec.free
      (s.group 0 0).any (fun g => (g.prec 2).state == .parked && (g.prec 2).woken && (z == ((g.prec 0).state == .free)) && (g.prec 1).state == .free))) = true ∧
    ([0, 1].all (fun d =>
      let q := recOf .waiting 2 [placedHeader]
      let s := withRecs (ready 0) (recOf .waiting 1 [placedHeader]) { q with place := { q.place with depth := d } } PathRec.free PathRec.free
      (s.group 0 0).any (fun g => g.mergePair == some (0, 1)))) = true ∧
    (let s := withRecs (ready 0) (recOf .waiting 1 [placedHeader]) (recOf .running 2 []) PathRec.free PathRec.free
     (s.group 0 0).any (fun g => (g.prec 0).state == .waiting && [1, 2, 3].all (fun k => !(g.prec k).place.stack.contains placedHeader)) = true) := by
  decide +kernel

/-- Key, bundle and launch entry of a spawned thread in lane 3. -/
def aKey : BinKey := ⟨.spawn, ⟨placedHeader, placedHeader, 0, [], 0, [], false⟩, 0, 0, 0⟩

/-- The bundle of the entry. -/
def aBundle : Bundle := ⟨8, 8, .spawn, 0, 0, aKey.place, 1, 0, [(3, 9)], [(2, [(3, 5)])], [], []⟩

/-- The launch list holds one entry. -/
def launchDue : State := withCore (ready 0) (fun k => { k with
  launchList := [⟨aKey, [⟨1, 3⟩]⟩], launchedAt := 0, bundles := [(1, aBundle)], bins := [(2, ⟨aKey, [⟨1, 3⟩], 0, 0⟩)] })

theorem witness_BinsAndTeams_bins : (tabFind (launchDue.core 0).bins 2).any (fun b => b.due ≤ launchDue.clockOf 0) = true ∧
    (launchDue.core 0).launchedAt ≠ launchDue.clockOf 0 + 1 ∧ (launchDue.core 0).barnWait = [] ∧
    (tabFind (launchDue.core 0).teams 0).any (fun t => (launchDue.ctx t.ctx).state == .resident &&
      (tabFind launchDue.launches t.launch).any (fun l => l.roles[aKey.role]?.any (fun r =>
        ((launchDue.core 0).launchRoom 0 r.budget).isSome))) = true ∧ aKey.place.stack = [] ∧ aKey.kind ≠ .spill ∧
    tabFind (launchDue.core 0).bundles 1 = some aBundle := by decide +kernel

/-- A team that pins its last line. -/
def pinDue : State := withCore (ready 0) (fun k => { k with teams := tabMod k.teams 0 (fun t => { t with toPin := 1, waiting := true }) })

/-- A launch of two teams, of which none is admitted; its first role has one group. -/
def admitDue : State :=
  { withLaunch (ready 0) (fun l => { l with state := .dispatching, nextTeam := 0, grid := 1, live := 0 }) with
    queues := [(0, ⟨0, 1, 0, true, 0, 0, 0, []⟩)], cores := [], ctxs := [(0, { (ready 0).ctx 0 with clmask := 1 })] }

/-- A group that has ended; a team with none left; a team that pins; a launch that is placed. -/
theorem witness_BinsAndTeams_teams :
    (let s := withGroup (ready 0) (fun g => { g with ended := true })
     (s.group 0 0).any Group.ended = true ∧ (s.core 0).held = [] ∧ (s.core 0).accs = [] ∧ (s.core 0).copies = [] ∧ s.windowCopies 0 0 = false) ∧
    (let s := withCore (ready 0) (fun k => { k with groups := [] })
     (tabFind (s.core 0).teams 0).any (fun t => !t.waiting && !(s.ctx t.ctx).preq) = true ∧ (s.core 0).groups = [] ∧ (s.core 0).bundles = [] ∧
       (s.core 0).bins = [] ∧ (s.core 0).launchList = [] ∧ (s.core 0).acWait = []) ∧
    (((pinDue.core 0).pinningTeam.map Prod.fst) = some 0 ∧
      (((List.range 512).map (fun i => ((pinDue.core 0).pinCursor + i) % 512)).find? (fun i => (pinDue.core 0).pinned i < 15)) = some 0 ∧ (pinDue.core 0).pinTotal + 1 ≤ 7680) ∧
    (let s := withCore (ready 0) (fun k => { k with teams := tabMod k.teams 0 (fun t => { t with toPin := 7681, waiting := true }) })
     ((s.core 0).pinningTeam.map Prod.fst) = some 0 ∧ 7680 < (s.core 0).pinTotal + 7681) ∧
    (admitDue.servedLaunches.map Prod.fst = [0] ∧ (tabFind admitDue.launches 0).any (fun l => !l.gbar &&
      admitDue.keptClusters admitDue.servedLaunches 0 l == 0 && (admitDue.ctx l.ctx).clmask.getLsbD 0 && ((admitDue.core 0).offers l).isSome) = true ∧
      (admitDue.core 0).l1 = [] ∧
      ((List.range 512).map (fun i => (admitDue.placeCursor + i) % 512)).head? = some 0) := by decide +kernel

/-! Keys, capabilities, launches and contexts -/

/-- Of object 1 the lines 31, 32, 95, 96 and 128, of object 3 the lines 31 and 32, each in a page of its own, are mapped to this
module's control memory, mirrored at module 1. Object 3 begins in the last line of a page. -/
def mapped (s : State) : State :=
  { withCore s (fun k => { k with descs := k.descs ++ [⟨0, 3, 0, BitVec.ofNat 256 (0x1D + 256 * 2 ^ 64 + 3968 * 2 ^ 192)⟩] }) with
    roots := tabSet ⟨0, 0⟩ s.roots 0 { s.root 0 with onum := 4 }
    xlats := [31, 32, 95, 96, 128].map (fun l => xlatOf 1 l (l / 32) (0x10000000000 + 4096 * (l / 32)) 1) ++
      [31, 32].map (fun l => xlatOf 3 l (l / 32) (0x10000010000 + 4096 * (l / 32)) 1) }

/-- Offset o of object 1. -/
def objAt (o : Nat) : Word64 := BitVec.ofNat 64 (2 ^ 40 + o)

/-- CAPSUB of object 1 into object 2, whose descriptor is given. -/
def capState (parent b : Word64) (w2 : Nat) : State :=
  withS (withS (withCore (ready 0xF4C1C2C300000280) (fun k => { k with descs := ⟨0, 2, 0, BitVec.ofNat 256 w2⟩ :: k.descs })) 2 parent) 3 b

/-- The object table of the context with eight entries. -/
def onum8 (s : State) : State := { s with roots := tabSet ⟨0, 0⟩ s.roots 0 ⟨0x10000000000, 8⟩ }

/-- PKEYW, before and after its answer; CAPSUB of a wrong space, past its parent, into no derivation slot, and into one. -/
theorem witness_KeysAndCapabilities :
    meets (.pkeyw ⟨0, 0xC2, 0, 0, 0, 0, 0, 0⟩) 0 (ready 0xF300C20000000000) (fun e => e.q.answer == none) = true ∧
    meets (.pkeyw ⟨0, 0xC2, 0, 0, 0, 0, 0, 0⟩) 0 (answered (ready 0xF300C20000000000) 0) (fun e => e.q.answer != none) = true ∧
    (let i : Instr := .capsub ⟨0xC1, 0xC2, 0xC3, 0, 0, 0, 0, 0x280⟩
     meets i 0 (answered (capState 0 0 0) 5) (fun e => e.q.answer != none) = true ∧
     meets i 0 (capState 0x8000000000000000 0 0) (fun e => e.q.answer == none && (e.g.read 0xC2 2 0).getLsbD 63) = true ∧
     ([(objAt 0, (0x20000000001 : Nat), 0x3D), (objAt 64, 2 ^ 40 - 1, 0x3D), (objAt 64, 2 ^ 41 + 64, 0x1D), (objAt 64, 2 ^ 41 + 64, 0x3D)].all (fun c =>
       let s := onum8 (capState c.1 (BitVec.ofNat 64 c.2.1) c.2.2)
       meets i 0 s (fun e => e.q.answer == none && !c.1.getLsbD 63 &&
         (match s.issued.lookupDesc e.core e.g.ctx (ptrObj c.1) with
           | (some w, s1) => (decodeDesc w (c.1.getLsbD 62)).any (fun d =>
             if c.2.1 = 2 ^ 40 - 1 then d.length < ptrOff c.1 + ((BitVec.ofNat 64 c.2.1).extractLsb' 0 40).toNat
             else ptrOff c.1 + ((BitVec.ofNat 64 c.2.1).extractLsb' 0 40).toNat ≤ d.length &&
               (match s1.lookupDesc e.core e.g.ctx 2 with
                 | (some w2, s2) => (w2.getLsbD 5 == (c.2.2 == 0x3D)) &&
                   (s2.writeDesc e.core e.g.ctx 2 (subDesc w d 5 64 64)).toOption.isSome
                 | _ => false))
           | _ => false)))) = true) ∧
    (decodeDesc placedDesc (placedDesc.getLsbD 1)).isSome = true := by decide +kernel

/-- The queue's pointer, to the last line of a page, and the record's. -/
def qptr : Word64 := objAt 3968
def recPtr : Word64 := BitVec.ofNat 64 (3 * 2 ^ 40)

/-- Queue 5 at that pointer, 32 slots; TAIL and RESERVE as given. -/
def withQueue (s : State) (tail reserve : Byte) : State :=
  { mapped s with
    queues := [(5, ⟨qptr, 5, 0, true, 0, 0, 0, []⟩)]
    mem := [(0x10000000000 + 4096, tail), (0x10000000000 + 4104, reserve)].filter (fun c => c.2 != 0) }

/-- The LAUNCH word of the record. -/
def launchWord (a : Word64) : State := withS (withS (withQueue (ready 0xE3C1C2C300000000) 0 0) 2 a) 3 recPtr

/-- The record parked for LAUNCH_ENQUEUE. -/
def launchParked (a : Word64) (tail : Byte) : State :=
  withPath (withQueue (ready 0) tail tail) (fun q => { q with state := .parked, reason := 10, obj := 0xE3, waitPtrs := [a, recPtr] })

theorem witness_Launches_word :
    (let i : Instr := .launch ⟨0xC1, 0xC2, 0xC3, 0, 0, 0, 0, 0⟩
     meets i 0 (answered (launchWord 0) 3) (fun e => e.q.answer != none) = true ∧
     meets i 0 (launchWord 0x4000000000000000) (fun e => e.q.answer == none && !((launchWord 0).core 0).accessPending 0) = true ∧
     ([0, qptr].all (fun a => meets i 0 (launchWord a) (fun e => e.g.read 0xC2 2 0 == a && a.extractLsb' 62 2 == 0#2 &&
       (match (launchWord a).issued.checkAddress 0 0 0 recPtr false 256 256 .control .read false with
         | (none, s1) => ((s1.queueAt 0 a).isSome == (a != 0)) && ((s1.releaseCore 0 0).recordCheck e recPtr).toOption.isSome
         | _ => false)))) = true) ∧
    ((launchParked 0 0).queueAt 0 0 = none ∧ (launchParked qptr 0).queueAt 0 qptr = some 5 ∧
      (((launchParked qptr 32).enqueueLaunch 0 0 5 recPtr).toOption.map Prod.fst) = some (some none) ∧
      (((launchParked qptr 31).enqueueLaunch 0 0 5 recPtr).toOption.map Prod.fst) = some (some (some 31)) ∧
      ((launchParked qptr 0).group 0 0).any (fun g => (g.prec 0).state == .parked && (g.prec 0).reason == 10 && (g.prec 0).obj == 0xE3 &&
        (g.prec 0).waitPtrs == [qptr, recPtr] && (g.prec 0).answer == none && !(g.prec 0).woken) = true) ∧
    (let s := withQueue (ready 0) 1 2
     [128, 136, 0].map (fun o => (s.queueWord 0 qptr o).toOption.map Prod.fst) = [some 1, some 2, some 0] ∧
     (s.enqueueLaunch 0 0 5 recPtr).toOption.map Prod.fst = some none) := by decide +kernel

/-- A launch of queue 5 in progress. -/
def launchOf (st : LaunchState) : Launch :=
  { placedLaunch with queue := 5, qptr := qptr, logn := 5, state := st, live := 0, cores := [0] }

/-- Queue 5 with TAIL 32 and HEAD at its last slot, whose record has the byte given at 39 (ZT is 8). -/
def slotState (b : Byte) : State :=
  { withQueue (ready 0) 32 32 with
    launches := [], queues := [(5, ⟨qptr, 5, 0, true, 32, 31, 31, []⟩)]
    mem := [(0x10000000000 + 4096, 32), (0x10000000000 + 12160 + 39, b)] }

/-- Is the slot's record refused? None where it cannot be read. -/
def slotRefused (s : State) : Option Bool :=
  match s.schedRead 0 (slotPtr qptr 5 31) 256 .read with
  | .ok (bs, s1) => some (s1.launchRefused (Launch.ofRecord 5 (s.queue 5) 31 (slotPtr qptr 5 31) (leNat bs)) (leNat bs)).1
  | .error _ => none

theorem witness_Launches_queues :
    (let s := withQueue (ready 0) 1 1
     (s.queue 5).usable = true ∧ (s.queueWord (s.queue 5).ctx.toNat (s.queue 5).qptr 128).toOption.isSome = true) ∧
    (let s : State := { withQueue (ready 0) 1 1 with launches := [(7, launchOf .waitingDeps)] }
     s.queueLive (s.queue 5) = true ∧ (s.launches.find? (fun e => e.2.queue = 5 ∧ e.2.state ≠ .admitted)).isSome = true ∧
     (s.depsMet (launchOf .waitingDeps)).1 = true) ∧
    (let s := slotState 1
     s.queueLive (s.queue 5) = true ∧ s.launches = [] ∧ (s.queue 5).next < (s.queue 5).tail ∧ slotRefused s = some true) ∧
    slotRefused (slotState 8) = some false ∧ slotRefused { slotState 1 with xlats := [] } = none ∧
    ([0, objAt 16384].all (fun p =>
      let l : Launch := { launchOf .admitted with sigptr := p }
      let s : State := withCore { withQueue (ready 0) 1 1 with launches := [(7, l)] } (fun k => { k with groups := [], teams := [] })
      tabFind s.launches 7 == some l && s.launchQuiet 7 && (s.ctx 0).state == .resident && (p == 0 ||
        ((s.releaseCore 0 0).schedCount 0 p).toOption.isSome) && (s.queue 5).done == [] && (s.queue 5).head == l.seq &&
        (s.sysWrite schedCore 0 qptr (leBytes 8 1)).toOption.isSome)) = true ∧
    ([[], [(7, launchOf .admitted)]].all (fun ls =>
      let s : State := { withQueue (ready 0) 1 1 with queues := [(5, ⟨qptr, 5, 0, false, 0, 0, 0, []⟩)], launches := ls }
      !(s.queue 5).en && 1 ≤ (s.queue 5).logn.toNat && (s.queue 5).logn.toNat ≤ 12 && (s.queueBusy 5 == !ls.isEmpty) &&
        (s.queueWord 0 qptr 0).toOption.isSome)) = true := by decide +kernel

/-- Context 0 with the state st. -/
def withCtx (s : State) (f : Context → Context) : State := s.setCtx 0 (f (s.ctx 0))

theorem witness_Contexts_life : (State.reset.ctx 63).state = .free ∧ (State.reset.queue 0).usable = false ∧
    ((ready 0).ctx 0).state = .resident ∧
    ([CtxState.saved, .saving, .restoring].all (fun st => (((withCtx (ready 0) (fun c => { c with state := st })).ctx 0).state == st))) = true ∧
    (let s := withCtx State.reset (fun c => { c with state := .ending, away := true })
     (s.ctx 0).state = .ending ∧ (s.ctx 0).away = true ∧ (s.discard 0).arrivals 0 = [] ∧ (s.discard 0).lower = []) := by decide +kernel

/-- The placed launch may be pre-empted, and may not; a saving context whose only record stands at a header. -/
theorem witness_Contexts_preemption :
    ([true, false].all (fun b =>
      let s := withLaunch (ready 0) (fun l => { l with preempt := b })
      (s.ctx 0).valid && (s.ctx 0).state == .resident && s.cores.all (fun c => c.1 < 512 && c.2.teams.all (fun t => t.2.ctx == 0 &&
        (tabFind s.launches t.2.launch).any (fun l => l.preempt == b))))) = true ∧
    (let s := withCtx (State.reset.placeWord 0) (fun c => { c with state := .saving })
     (s.ctx 0).state = .saving ∧ s.teamsStopped 0 = true) := by decide +kernel

/-- A step of the placed group. -/
def aStep : StepOp :=
  { ctx := 0, job := 0, launch := 0, team := 0, slot := 0, prec := 0, age := 0, instr := .cstep ⟨0, 0xF8, 0, 0xC4, 8, 0, 0, 0x500⟩, pc := pc0,
    vals := [0, 0, 0, 0, 0, 0], order := 0, gen := 0, bar := none, index := 0, mine := none, send := [], sent := 0, got := [], results := none, prior := 0, outs := [],
    error := none, hold := none, descs := [] }

/-- A saved context of whose part on core 0 one of each kind of result is to come. -/
def withArrivals : State :=
  let c := { aCopy with todo := [], flying := [⟨⟨[⟨.scratch 0, .scratch 128, 16⟩]⟩, none, 0, [], false⟩] }
  (withCtx State.reset (fun c => { c with state := .saved, away := true })).onCore 512 (fun k => { k with
    groups := (doneLoad.core 0).groups
    accs := (doneLoad.core 0).accs, copies := [(0, c)], nears := (nearDue.core 0).nears, steps := [(0, aStep)] })

/-- A request of RESTORE; a saved context with nothing away, and one that restores; an arrival of each kind. -/
theorem witness_Contexts_restore : ((ready 0).ctx 0).valid = true ∧ (withArrivals.ctx 0).away = true ∧
    withArrivals.arrivals 0 = [.access 512 7, .line 512 0, .step 512 0, .near 512 3] ∧ (withArrivals.arrivals 0)[4]? = none ∧
    (withArrivals.group 512 0).any (fun g => g.lanes != 0 && (List.range 4).all (fun k => (g.prec k).reason != 7 && (g.prec k).reason != 8)) = true ∧
    (let s := withCtx State.reset (fun c => { c with state := .saved, rreq := true })
     (s.ctx 0).state = .saved ∧ (s.ctx 0).rreq = true ∧ (s.chooseClusters 0 (s.awayClusters 0) []).isSome = true) ∧
    (let s := withCtx State.reset (fun c => { c with state := .restoring })
     (s.ctx 0).state = .restoring ∧ (((s.coresOf 0).foldl (fun s k => s.invalidateL1 k 0) s).ctx 0).endAfter = false ∧
       (((s.coresOf 0).foldl (fun s k => s.invalidateL1 k 0) s).ctx 0).preq = false) := by decide +kernel

/-! Configuration, power and boot -/

/-- Each table, open to a write and not. -/
theorem witness_ConfigurationWrites :
    ((State.reset.ctx 0).state = .free ∧ ((ready 0).ctx 0).state = .resident) ∧
    ((State.reset.queue 63).en = false ∧ State.reset.launches = [] ∧ ((slotState 1).queue 5).en = true) ∧
    ((State.reset.mig 35 7).en = false ∧ (({ State.reset with migs := [(3, ⟨0, 128, 1, 0, true, true, false, [], none⟩)] } : State).mig 0 3).en = true) ∧
    (1000 ≤ (1000 : Word64).toNat ∧ (1000000000 : Word64).toNat ≤ 1000000000 ∧ (999 : Word64).toNat < 1000 ∧ 1000000000 < (1000000001 : Word64).toNat) ∧
    (State.reset.qp 4095).valid = false ∧
    ((1 : Word64).getLsbD 0 = true ∧
      (let s := State.reset.setRouter 7 { State.reset.router 7 with ports := [(8, { (State.reset.router 7).port 8 with gencap := 2 })] }
       ((s.router 7).port 8).gencap ≠ 0 ∧ ((s.router 7).port 8).st ≠ 2)) := by decide +kernel

/-- At reset no context is on the cores, so that a region size takes a write; with context 0 resident it does not. A window. -/
theorem witness_ConfigurationWrites_maps :
    (∀ x, x < 64 → (State.reset.ctx x).state = .free) ∧ ((ready 0).ctx 0).state = .resident ∧
    (State.reset.window 63 255).win < 2 ^ 32 ∧ (State.reset.window 63 255).out < 2 ^ 32 := by decide +kernel

/-- An island free to follow, capped, and hot; power above PCAP, below it and between. -/
theorem witness_PowerAndLinks :
    ((State.reset.island 19).capped = false ∧ (State.reset.island 19).therm = false) ∧
    (let s : State := { State.reset with islands := [(0, ⟨80, 41, 0, true, false, 0⟩), (23, ⟨40, 40, 0, false, true, 0⟩)] }
     (s.island 0).capped = true ∧ 20 < (s.island 0).fcur ∧ (s.island 0).fcur < (s.island 0).ftgt ∧ (s.island 0).therm = false ∧
     40 < (s.island 0).fcur ∧ (s.island 23).therm = true) ∧
    (State.reset.pcap < 3001 ∧ 2899 + 100 < State.reset.pcap ∧ 2900 ≤ State.reset.pcap ∧ State.reset.pcap ≤ 2900 + 100) ∧
    ([(900, 40)] : List (Nat × Nat))[0]? = some (900, 40) := by decide +kernel

theorem witness_BootAndReset : State.reset.bootStatus = 0 ∧
    (⟨1, 2, 3, 4, none⟩ : BootImages).failing = none ∧ ([1, 5].all (fun k => (⟨1, 2, 3, 4, some k⟩ : BootImages).failing == some k)) = true := by
  decide +kernel

/-! Resume words, translation, moves -/

/-- Context 0's resume word. -/
def withResume (s : State) (w : Word64) : State := { s with resume := [(0, w)] }

/-- The placed record parked with reason 11; record 1 has threads of its own. -/
def parkedAt11 : State := withRecs (withTrap (ready 0)) { recOf .parked 1 [] with reason := 11, cls := 6, waitPtrs := [64] } (recOf .running 2 [])
  PathRec.free PathRec.free

/-- A copy in slot 0 held at a line; another of its operations is at another module. -/
def copyHeld : State := withCopy { aCopy with hold := some ⟨0x4000020000000000, [64]⟩, flying := [⟨⟨[⟨.scratch 0, .scratch 128, 16⟩]⟩, none, 0, [3], false⟩] }

/-- Each action: on the record, and on the engine slot. -/
theorem witness_ResumeWords :
    ([(1 : Word64), 0, 2, 3].all (fun act =>
      let s := withResume parkedAt11 (2 ^ 63 + act * 2 ^ 8)
      !(s.ctx 0).away && (s.resumeWord 0).getLsbD 63 && !(s.resumeWord 0).getLsbD 10 && ((s.resumeWord 0).extractLsb' 8 2).zeroExtend 64 == act &&
        physCore (s.ctx 0).cmap ((s.resumeWord 0).extractLsb' 24 9).toNat == 0 && (s.resumeWord 0).extractLsb' 0 8 == 0#8 &&
        (s.group 0 0).any (fun g => g.ctx == 0 && (g.prec 0).state == .parked && (g.prec 0).reason == 11 && !(g.prec 0).woken &&
          (g.prec 0).cls != 18 && s.trapBlock g.launch != 0 && (g.prec 0).trap == none && (g.prec 1).lanes != 0) &&
        ((s.core 0).heldAccess 0 0).isNone)) = true ∧
    ([(1 : Word64), 2, 3].all (fun act =>
      let s := withResume copyHeld (2 ^ 63 + 2 ^ 10 + act * 2 ^ 8)
      !(s.ctx 0).away && (s.resumeWord 0).getLsbD 63 && (s.resumeWord 0).getLsbD 10 && ((s.resumeWord 0).extractLsb' 8 2).zeroExtend 64 == act &&
        physCore (s.ctx 0).cmap ((s.resumeWord 0).extractLsb' 24 9).toNat == 0 && (s.resumeWord 0).extractLsb' 16 8 == 0#8 &&
        (tabFind (s.core 0).copies 0).any (fun c => c.ctx == 0 && c.hold.isSome && c.flying.any (fun f => f.tags != [])))) = true := by
  decide +kernel

/-- A request on the upper deck for a load of core 0, with its answer. -/
def anUpper (answer : Option (Option Nat)) : UpperReq :=
  { core := 0, acc := 7, ctx := 0, agent := 0, line := 2 ^ 33, slot := none, sent := 2 ^ 33, op := 7, acquire := false, answer := answer }

/-- A translation that is found; nothing outstanding for the fence; a record and a copy that wait at a word. -/
theorem witness_TranslationAndMoves_translation :
    (match (mapped (ready 0)).lookupDesc 0 0 (ptrObj qptr) with
      | (some w, _) => (decodeDesc w (qptr.getLsbD 62)).any (fun d =>
        ((mapped (ready 0)).translate 0 0 1 d (ptrOff qptr)).toOption.isSome)
      | _ => false) = true ∧ qptr.getLsbD 63 = false ∧
    ((ready 0).lower = [] ∧ (let s : State := { State.reset with upper := [(1, anUpper (some none)), (2, anUpper none)], tseqMark := (2, 0) }
       (s.upper.all (fun r => decide (s.tseqMark.1 ≤ r.1) || r.2.answer.isSome)) = true) ∧ ((ready 0).cores.all (fun c => c.2.copies.isEmpty)) = true) ∧
    (let s := withCopy { aCopy with hold := some ⟨0, [64]⟩, flying := [⟨⟨[]⟩, none, 2, [], true⟩] }
     let t : State := { s with tseqMark := (2, 0) }
     (t.cores.all (fun c => c.2.copies.all (fun x => x.2.flying.all (fun f => t.tseqMark.1 ≤ f.seq)))) = true) ∧
    (parkedAt11.qps = [] ∧ (parkedAt11.group 0 0).any (fun g => (g.prec 0).state == .parked && (g.prec 0).reason == 11 &&
      (g.prec 0).waitPtrs.contains (BitVec.ofNat 64 64) && tabSorted g.recs) = true ∧ tabSorted (parkedAt11.core 0).groups = true ∧
      (tabFind (copyHeld.core 0).copies 0).any (fun c => c.hold.any (fun h => h.stops.contains 64)) = true) := by decide +kernel

/-- An entry of a controller that moves its last line; one that is off. -/
theorem witness_TranslationAndMoves_moves :
    (State.reset.mig 35 7).en = false ∧ (State.reset.mig 35 7).owner = none ∧
    (let s : State := { State.reset with migs := [(3, ⟨0, 1024, 2, 1, false, true, false, [], none⟩)] }
     (s.mig 0 3).en = true ∧ (s.mig 0 3).mode = false ∧ (s.mig 0 3).ptr < (s.mig 0 3).lines ∧ s.isLive (paModule (s.mig 0 3).dst) = true ∧
     tabSorted s.dir = true ∧ tabSorted s.l2 = true ∧ 1024 / 128 + 1 < 2 ^ 49 ∧ 0 / 128 + 1 ≠ s.forward (1024 / 128 + 1) ∧
     (s.snapBefore (s.forward ((s.mig 0 3).dst / 128 + (s.mig 0 3).ptr))).mig 0 3 = s.mig 0 3 ∧ s.moveWaits (s.mig 0 3) = false) ∧
    (let s : State := { State.reset with
        migs := [(2, ⟨1024, 0x10000, 1, 0, true, true, false, [], some (0, 0)⟩), (3, ⟨1024, 2048, 2, 0, false, true, false, [], none⟩)] }
     s.moveWaits (s.mig 0 3) = true) := by decide +kernel

/-! Homes and host accesses -/

/-- A line of this module's control memory, mirrored at module 1, and an agent's line. -/
def aRef : LineRef := ⟨2 ^ 33, 1⟩

/-- It at its homes. -/
def aHome : HomeRef := State.reset.homeRef aRef

def agentLineOf (st : Moesi) (m : ByteMask) : AgentLine := ⟨st, 7, m, 0, 0, [], 0⟩

/-- The state with the directory entry of the line, and the agents that hold it. -/
def homeState (d : DirEntry) (holders : List (Nat × AgentLine)) : State :=
  { State.reset with dir := [(2 ^ 33, d)], l2 := holders.map (fun h => (agentKey h.1 (2 ^ 33), h.2)) }

/-- Is the line one that a home serves for agent 0, which does not hold it and has room? -/
def serves (s : State) : Bool :=
  lineOk aRef && s.homeRef aRef == aHome && s.isAgent 0 && (s.dirOf aHome.line).held.isNone && !(s.dirOf aHome.line).contended && (s.agentLine 0 aHome.line).isNone &&
    (s.homeRead aHome).toOption.isSome

theorem witness_Homes_reads :
    serves (homeState { DirEntry.idle with state := .i } []) = true ∧
    serves (homeState { DirEntry.idle with state := .s, sharers := [1] } [(1, agentLineOf .s 0)]) = true ∧
    ([Moesi.m, .e].all (fun st => let s := homeState { DirEntry.idle with state := .x, owner := 1 } [(1, agentLineOf st 0)]
      serves s && (s.agentLine 1 aHome.line == some (agentLineOf st 0)))) = true ∧
    (let s := homeState { DirEntry.idle with state := .o, owner := 1, sharers := [2] } [(1, agentLineOf .o 0), (2, agentLineOf .s 0)]
     serves s = true ∧ s.agentLine 1 aHome.line = some (agentLineOf .o 0)) ∧
    (let s := homeState { DirEntry.idle with state := .p, masks := [(1, 1)] } [(1, agentLineOf .pw 1)]
     serves s = true ∧ ((s.gather aHome).toOption.any (fun s1 => (s1.homeRead aHome).toOption.isSome)) = true) := by decide +kernel

theorem witness_Homes_ownership :
    ([([] : List Nat), [1]].all (fun sh =>
      let s := homeState { DirEntry.idle with state := if sh.isEmpty then .i else .s, sharers := sh } (sh.map (fun k => (k, agentLineOf .s 0)))
      serves s && (s.l2.filter (fun e => e.1 / 2 ^ 49 = 0)).isEmpty && sh.all (fun k => (s.agentLine k aHome.line).map AgentLine.state == some .s))) = true ∧
    (let s := homeState { DirEntry.idle with state := .x, owner := 1 } [(1, agentLineOf .m 2)]
     serves s = true ∧ (s.agentLine 1 aHome.line).map AgentLine.state = some .m) ∧
    (let s := homeState { DirEntry.idle with state := .x, owner := 1, contended := true } [(1, agentLineOf .m 2)]
     (s.dirOf aHome.line).contended = true ∧ s.time - (s.dirOf aHome.line).lastMove < 4096 ∧ s.agentLine 1 aHome.line = some (agentLineOf .m 2) ∧
     (2 : ByteMask) &&& 1 = 0 ∧ (s.homeLine aHome).toOption = some aHome.line) ∧
    (let s := homeState { DirEntry.idle with state := .p, masks := [(0, 1), (1, 2)] } [(0, agentLineOf .pw 1), (1, agentLineOf .pw 2)]
     s.agentLine 0 aHome.line = some (agentLineOf .pw 1) ∧ tabFind (s.dirOf aHome.line).masks 0 = some 1 ∧ (4 : ByteMask) &&& ~~~1 ≠ 0 ∧
     (∀ e ∈ (s.dirOf aHome.line).masks, e.1 ≠ 0 → e.2 &&& 4 = 0)) := by decide +kernel

theorem witness_Homes_room : (homeState { DirEntry.idle with state := .i } []).l2MakeRoom 0 aHome.line 0 = .ok (homeState { DirEntry.idle with state := .i } []) ∧
    (homeState { DirEntry.idle with state := .i } []).classWays 0 0 ≠ [] := ⟨rfl, by decide⟩

theorem witness_Homes_events :
    ([([] : List Nat), [2]].all (fun sh =>
      let s := homeState { DirEntry.idle with state := if sh.isEmpty then .x else .o, owner := 1, sharers := sh } [(1, agentLineOf (if sh.isEmpty then .m else .o) 2)]
      (s.homeWrite aHome 7 (BitVec.allOnes 128)).toOption.isSome && (s.agentLine 1 aHome.line).isSome)) = true ∧
    ([[1], [1, 2]].all (fun sh => let s := homeState { DirEntry.idle with state := .s, sharers := sh } [(1, agentLineOf .s 0)]
      (s.agentLine 1 aHome.line).map AgentLine.state == some .s)) = true ∧
    (let s := homeState { DirEntry.idle with state := .x, owner := 1 } [(1, agentLineOf .e 0)]
     s.agentLine 1 aHome.line = some (agentLineOf .e 0) ∧ (s.homeLine aHome).toOption = some aHome.line) ∧
    (((homeState { DirEntry.idle with held := some ⟨0, 200, 0, 0⟩ } []).dirOf aHome.line).held = some ⟨0, 200, 0, 0⟩ ∧ 0 * 8 + coreDie 200 = 1) ∧
    (let s : State := { homeState DirEntry.idle [] with live := 2 }
     inPrimary (aHome.line * 128) = true ∧ s.homeRef aRef = aHome ∧ aHome.slot = some (mirrorLine aRef) ∧ s.isLive 0 = true ∧
     s.isLive (paModule (mirrorLine aRef * 128)) = true ∧
     ((s.ctlRead aHome.line).toOption.any (fun d => (s.ctlWrite (mirrorLine aRef) d (BitVec.allOnes 128)).toOption.isSome)) = true) ∧
    (let s : State := { homeState { DirEntry.idle with contended := true } [] with time := 4096 }
     (s.dirOf aHome.line).contended = true ∧ 4096 ≤ s.time - (s.dirOf aHome.line).lastMove) ∧
    State.reset.time - (State.reset.dirOf aHome.line).lastMove < 4096 := by decide +kernel

/-- A packet for a live peer, with room in the router and with none; a request answered, and one that no record waits for. -/
theorem witness_Homes_posts :
    (let s : State := { State.reset with live := 4 }
     let r := s.spanRouter (spanOf (2 ^ 33 * 128))
     2 ≠ s.moduleId.toNat ∧ s.live.getLsbD 2 = true ∧ s.injectRoom r 3 ⟨0, []⟩ = true ∧
       ({ s with outbox := [(r, 3, ⟨0, []⟩)] } : State).injectRoom r 3 ⟨0, []⟩ = false) ∧
    (State.reset.live.getLsbD 2 = false) ∧
    (tabFind [(5, anUpper none)] 5 = some (anUpper none) ∧ tabFind State.reset.upper 5 = none) := by decide +kernel

/-- A packet of module 1 to this one on the upper deck's request channel, with the code w, for agent 8 and that line. -/
def upperPacket (w : BitVec 6) (bs : List Byte) : Packet := packetOf 1 ⟨0, 3, 63, w, 0, 0, 2 ^ 40, 5, 0⟩ bs

theorem upperPacket_fields (bs : List Byte) (h : bs = [] ∨ bs = [8, 0, 1, 0]) (n : Nat) (hn : n < 64) :
    (upperPacket (BitVec.ofNat 6 n) bs).field 16 1 = 1 ∧ (upperPacket (BitVec.ofNat 6 n) bs).field 34 6 = n ∧
      (upperPacket (BitVec.ofNat 6 n) bs).tagOf = 5 := by
  have h1 : ∀ n, n < 64 → ∀ bs ∈ [[], [8, 0, 1, 0]], (upperPacket (BitVec.ofNat 6 n) bs).field 16 1 = 1 ∧
      (upperPacket (BitVec.ofNat 6 n) bs).field 34 6 = n ∧ (upperPacket (BitVec.ofNat 6 n) bs).tagOf = 5 := by decide +kernel
  exact h1 n hn bs (by simpa using h)

/-- Where the hardware's codes of these operations differ, there is a packet for each. -/
theorem witness_Homes_packets (h : ∀ a ∈ deckOps true, ∀ b ∈ deckOps true, Config.opcode a = Config.opcode b → a = b)
    (n : Nat) (hn : n ∈ deckOps true) (bs : List Byte) (hb : bs = [] ∨ bs = [8, 0, 1, 0]) :
    (upperPacket (Config.opcode n) bs).does = some n ∧ (upperPacket (Config.opcode n) bs).field 16 1 = 1 ∧
      (upperPacket (Config.opcode n) bs).tagOf = 5 := by
  have e := upperPacket_fields bs hb (Config.opcode n).toNat (Config.opcode n).isLt
  rw [BitVec.ofNat_toNat, BitVec.setWidth_eq] at e
  refine ⟨?_, e.1, e.2.2⟩
  unfold Packet.does
  rw [e.1, e.2.1]
  have hf : (deckOps (1 == 1)).find? (fun m => decide ((Config.opcode m).toNat = (Config.opcode n).toNat)) ≠ none := by
    intro hx
    have := List.find?_eq_none.mp hx n hn
    simp at this
  obtain ⟨m, hm⟩ := Option.ne_none_iff_exists'.mp hf
  have h1 := List.find?_some hm
  rw [decide_eq_true_eq] at h1
  rw [hm, h m (List.mem_of_find?_eq_some hm) n hn (BitVec.eq_of_toNat_eq h1)]

/-- The requests that such packets make are answered. -/
theorem witness_Homes_served : ∀ n, n < 64 →
    (let p := upperPacket (BitVec.ofNat 6 n) [8, 0, 1, 0]
     let s : State := { homeState { DirEntry.idle with state := .i } [] with live := 2 }
     (match exec (.homeReadRequest p.lineRef p.agent p.flag) s with | .next _ => true | _ => false) = true ∧
     (match exec (.homeOwnershipRequest p.lineRef p.agent p.flag p.mask p.lineData) s with | .next _ => true | _ => false) = true ∧
     (match exec (.invalidate p.lineRef p.agent) s with | .next _ => true | _ => false) = true) := by decide +kernel

theorem witness_HostAccesses :
    (paPresent 127 = true ∧ State.reset.isLive (paModule 127) = true ∧ State.reset.migs = [] ∧ State.reset.failed = []) ∧
    ((State.reset.hostStore 4 aRef 127 [1]).toOption.isSome = true ∧ (State.reset.hostRead 5 aRef (byteMask 126 2)).toOption.isSome = true ∧
      paPresent (2 ^ 40 + 127) = true) ∧
    (let s := homeState { DirEntry.idle with sync := true } []
     (s.dirOf aHome.line).sync = true ∧ (s.dirOf aHome.line).held = none ∧
     (s.agentUpdate 4 aHome s.hostCos.toNat none (fun d => (syncLine (lineField (mergeLine d (placeBytes 0 [1]) (byteMask 0 1)) 0 64)
      (lineEpoch d + 1) (BitVec.allOnes 512), BitVec.allOnes 128))).toOption.isSome = true) := by decide +kernel

/-! Ports, routing and lower-deck requests -/

/-- Router 7 with a port 8. -/
def withPort (p : Port) : State := State.reset.setRouter 7 { State.reset.router 7 with ports := [(8, p)], routes := [(3, 8), (4, 15), (5, 9)] }

/-- A port that is up. -/
def portUp : Port := { (State.reset.router 7).port 8 with st := 2, en := true }

theorem witness_PortsAndRouting_ports :
    (((withPort { portUp with st := 1, cap := 2 }).router 7).port 8).cap.getLsbD 1 = true ∧
    (((withPort { portUp with st := 1, cap := 2 }).router 7).port 8).cap &&& 2 ≠ 0 ∧
    (((withPort { portUp with st := 1, cap := 2 }).router 7).port 8).cap &&& 1 = 0 ∧
    State.reset.time - (((withPort { portUp with st := 1 }).router 7).port 8).since < 4000000 ∧
    (((withPort { portUp with st := 1 }).router 7).port 8).st = 1 ∧ (((withPort { portUp with st := 1 }).router 7).port 8).en = true ∧
    2 < (((withPort { portUp with rx := 3 }).router 7).port 8).rx ∧ (⟨0, 0, false, 0, none, []⟩ : LinkFlit).crcOk = false ∧
    (4000000 ≤ ({ withPort { portUp with st := 1 } with time := 4000000 } : State).time - (((withPort { portUp with st := 1 }).router 7).port 8).since) ∧
    (((withPort { portUp with buf := [(0, 0, 5)], tries := 1023 }).router 7).port 8).buf.any (fun e => e.1 ≤ 0) = true ∧
    (((withPort { portUp with buf := [(0, 0, 5)], tries := 1024 }).router 7).port 8).tries = 1024 ∧
    (((withPort portUp).router 7).port 8).wait = [] ∧ tabGet [] (((withPort portUp).router 7).port 8).part 6 = [] ∧
    bufferedFlits (((withPort portUp).router 7).input 8 6) < 32 ∧ ((0 : BitVec 512).extractLsb' 25 9).toNat = 0 ∧
    (0x3E#512 <<< 34).extractLsb' 34 6 = 0x3E#6 ∧ ((0x3E#512 <<< 34).extractLsb' 25 9).toNat = 0 ∧ ((withPort portUp).router 7).sweeps = [] := by decide +kernel

/-- A header for module d with HOPS h, first in an input. -/
def routed (d h used : Nat) (st : Nat) : State :=
  let s := withPort { portUp with st := st, used := [(0, used)] }
  s.setRouter 7 ((s.router 7).setInput 9 0 [⟨BitVec.ofNat 512 (d + h * 2 ^ 19), []⟩])

/-- Sent on, with the last credit; no credit; a port that is down; delivered here; HOPS at its end; no route. -/
theorem witness_PortsAndRouting_routing :
    ([(3, 2, 31, 2), (3, 2, 32, 2), (3, 2, 0, 0), (4, 2, 0, 2), (3, 1, 0, 2), (5, 2, 0, 2)].all (fun c =>
      let s := routed c.1 c.2.1 c.2.2.1 c.2.2.2
      (s.router 7).sweeps.isEmpty && ((s.router 7).input 9 0).length == 1 && ((s.router 7).port 8).wait.isEmpty)) = true := by decide +kernel

/-- A request of context 0 to module 3, sent at time 0, whose deadline is time 100. -/
def aReq : LowerReq := ⟨0, 0, 3, 128, false, 3 * 2 ^ 48, BitVec.allOnes 128, 0, .copy 0, some 0, 100⟩

theorem witness_LowerDeck :
    (let s : State := { State.reset with lower := [(9, aReq)], ptime := 100 }
     tabFind s.lower 9 = some aReq ∧ aReq.sent = some 0 ∧ aReq.deadline.toNat ≤ s.ptime.toNat ∧ (s.ctx aReq.ctx).job.toNat ∉ s.stopped) ∧
    tabFind State.reset.lower 9 = none ∧ (List.replicate 128 (1 : Byte)).length = maskCount aReq.mask := by decide +kernel

/-! Collective steps -/

/-- A CSTEP, .first with FP32 elements, of two elements of object 2, to peer 3 on chain 1. -/
def stepWord : FmtA := ⟨0, 0xF8, 0, 0xC4, 8, 0, 0, 0x500⟩

/-- It is ready to issue. -/
def stepState : State :=
  withS (withS (withTensor (withTeam (ready 0xE000F800C4800500))) 4 0x4000020000000000) 6 (2 + 3 * 2 ^ 32 + 2 ^ 40)

/-- Steps of the same values in slots of core 0; the chain's values and packets that wait. -/
def withStep (x : StepOp) : State :=
  { withCore stepState (fun k => { k with steps := [(4, x)] }) with xlats := [xlatOf 2 0 0 0 0] }

/-- The step as it stands once accepted. -/
def stepAt4 : StepOp := { aStep with
  instr := .cstep stepWord, vals := [0x4000020000000000, 0, 2 + 3 * 2 ^ 32 + 2 ^ 40, 1000, 0x4000020000000000], index := 1, order := 0 }

theorem witness_StepWords :
    meets (.cstep stepWord) 0 stepState (fun e =>
      (stepState.issued.checksThenBar e (stepChecks stepWord e stepState.issued) none).toOption == some none &&
      (stepState.core 0).steps.length < 32 && (stepState.core 0).pendRoom none && stepState.issued.stepBytes 1 + 2 * 4 ≤ 4 * 2 ^ 20 &&
      tabFree (stepState.core 0).steps 32 == some 0 && stepWord.mod.getLsbD 10) = true ∧
    (let s := withCore stepState (fun k => { k with steps := (List.range 32).map (fun j => (j, stepAt4)) })
     meets (.cstep stepWord) 0 s (fun e => (s.issued.checksThenBar e (stepChecks stepWord e s.issued) none).toOption == some none &&
      !((s.core 0).steps.length < 32)) = true) ∧
    meets (.cabort ⟨0, 0xC2, 0, 0, 0, 0, 0, 0⟩) 0 (ready 0xE100C20000000000) (fun _ => true) = true ∧
    (tabFind ((withStep stepAt4).core 0).steps 4 = some stepAt4 ∧ stepAt4.ctx = 0 ∧ stepAt4.results = none ∧ stepAt4.tag = 1) := by decide +kernel

/-- A packet for the step. -/
def stepPacket (count : Nat) : StepPacket := ⟨3, 0, 1, 1, count, 0, [5, 6]⟩

theorem witness_StepWork_data :
    (let s := withStep stepAt4
     s.stepTurn stepAt4 = true ∧ stepAt4.first = true ∧ stepAt4.mine = none ∧ stepAt4.hold = none ∧
     (match s.bufElems 0 stepAt4 stepAt4.soff with
       | .ok (_, s1) => (s1.bufElems 0 stepAt4 stepAt4.koff).toOption.any (fun r => tabFind (r.2.core 0).steps 4 == some stepAt4 && r.2.stepInbox == [])
       | .error _ => false) = true) ∧
    (let x := { stepAt4 with instr := .cstep { stepWord with mod := 0 } }
     let s := (withStep x).onChain 0 1 (fun c => { c with held := some [7, 8] })
     x.first = false ∧ s.stepTurn x = true ∧ (s.chain 0 1).held = some [7, 8] ∧ x.soff + x.n ≤ 2 ∧ x.koff + x.n ≤ 2 ∧ s.stepInbox = []) ∧
    (stepState.allSteps.find? (fun y => y.2.2.takes (stepPacket 2)) = none ∧
      ([2, 3].all (fun n => (withStep stepAt4).allSteps.find? (fun y => y.2.2.takes (stepPacket n)) == some (0, 4, stepAt4))) = true ∧
      stepAt4.n = 2 ∧ (stepPacket 2).values[1]? = some 6) ∧
    ([0x500, 0xD00].all (fun m =>
      let x := { stepAt4 with instr := .cstep { stepWord with mod := m }, mine := some [1, 2], send := [], got := [(0, 3), (1, 4)] }
      (tabFind ((withStep x).core 0).steps 4 == some x) && x.got.length == x.n && x.results.isNone &&
        (withStep x).ptime.toNat < x.deadline.toNat && (x.last == (m == (0xD00 : BitVec 13))))) = true := by decide +kernel

theorem witness_StepWork_ends :
    (let x := { stepAt4 with results := some [1, 2], outs := [(0, 8, none), (128, 8, none)] }
     tabFind ((withStep x).core 0).steps 4 = some x ∧ x.hold = none ∧ (withStep x).nextOut 0 x = some (0, 8, none) ∧ (∃ o ∈ x.outs, o.1 ≠ 0)) ∧
    (let s : State := { withStep stepAt4 with ptime := 1000 }
     stepAt4.deadline.toNat ≤ s.ptime.toNat ∧ tabFind (s.core 0).steps 4 = some stepAt4 ∧ stepAt4.results = none ∧
     s.allSteps.find? (fun y => y.2.2.peer == 3 && y.2.2.job == 0 && y.2.2.tag == 1 && y.2.2.index == 1) = some (0, 4, stepAt4)) := by decide +kernel

/-! Gang switches -/

/-- A command of the gang queue. -/
def gangSlot (op job gseq start : Nat) : BitVec 1024 :=
  BitVec.ofNat 1024 (op + job * 2 ^ 16 + gseq * 2 ^ 32 + start * 2 ^ 64 + 0x4000020000000000 * 2 ^ 128)

/-- One command at HEAD; context 0 is of job 5, and object 2 is an image in the granary region whose header names the job. -/
def gangState (c : BitVec 1024) : State :=
  { withCtx (withTensor (ready 0)) (fun x => { x with job := 5 }) with
    gangSlots := [(0, c)], gangTail := 1, carves := [(1, 2461696)], mem := [(0x10000000000 + 2 ^ 36, 5)]
    xlats := (List.range 601).map (fun i => xlatOf 2 (32 * i) i (0x10000000000 + 2 ^ 36 + 4096 * i) 0) }

/-- Where page i of the image is found. -/
theorem gangState_find (c : BitVec 1024) (d : Desc) (hd : d.root = 0 ∧ d.toplvl = 0) (i : Nat) (h : i < 601) :
    (gangState c).xlats.find? (fun t => t.covers 0 0 2 d (4096 * i) && sameSlice 2 t.line 2 (4096 * i / 128)) =
      some (xlatOf 2 (32 * i) i (0x10000000000 + 2 ^ 36 + 4096 * i) 0) := by
  have hl : 4096 * i / 128 = 32 * i := by omega
  have hp : 4096 * i / 4096 = i := by omega
  simp only [gangState, List.find?_map, Option.map_eq_some_iff, List.find?_range_eq_some]
  refine ⟨i, ⟨?_, by simpa using h, ?_⟩, rfl⟩
  · simp [CachedXlat.covers, xlatOf, sameSlice, hd.1, hd.2, hl, hp]
  · intro j hj
    have : ¬i < j + 1 := by omega
    simp [CachedXlat.covers, xlatOf, hp, this]

theorem gangState_page (c : BitVec 1024) (hc : c = gangSlot 0 5 0 1 ∨ c = gangSlot 1 5 0 1) (i : Nat) (h : i < 601) :
    (gangState c).sysPort schedCore 0 (ptrWithOff 0x4000020000000000 (ptrOff 0x4000020000000000 + 4096 * i)) =
      .ok (⟨0x10000000000 + 2 ^ 36 + 4096 * i, 0, 0⟩, gangState c) := by
  have hl : (gangState c).lookupDesc schedCore 0 2 = (some (BitVec.ofNat 256 (0x1F + 2 ^ 40 * 2 ^ 64)), gangState c) := by
    rcases hc with rfl | rfl <;> decide +kernel
  have hn : ∀ i, i < 601 → ptrObj (ptrWithOff 0x4000020000000000 (ptrOff 0x4000020000000000 + 4096 * i)) = 2 ∧
      ptrTag (ptrWithOff 0x4000020000000000 (ptrOff 0x4000020000000000 + 4096 * i)) = 1 ∧
      ptrOff (ptrWithOff 0x4000020000000000 (ptrOff 0x4000020000000000 + 4096 * i)) = 4096 * i := by decide +kernel
  have hd : decodeDesc (BitVec.ofNat 256 (0x1F + 2 ^ 40 * 2 ^ 64)) true = some ⟨true, true, true, false, true, 0, 2 ^ 40, 0, 0⟩ := by decide +kernel
  have hr : ((gangState c).root 0).otbase = 0 := by rcases hc with rfl | rfl <;> decide +kernel
  have hp : ptrTag (0x4000020000000000 : Word64) = 1 := by decide
  obtain ⟨h1, h2, h3⟩ := hn i h
  have hz : coreDie schedCore = 0 := by decide
  have hf := gangState_find c ⟨true, true, true, false, true, 0, 2 ^ 40, 0, 0⟩ ⟨rfl, rfl⟩ i h
  generalize BitVec.ofNat 256 (0x1F + 2 ^ 40 * 2 ^ 64) = w at hl hd
  generalize ptrWithOff 0x4000020000000000 (ptrOff 0x4000020000000000 + 4096 * i) = q at h1 h2 h3 ⊢
  have ht : (gangState c).translate schedCore 0 2 ⟨true, true, true, false, true, 0, 2 ^ 40, 0, 0⟩ (4096 * i) =
      .ok (⟨0x10000000000 + 2 ^ 36 + 4096 * i, 0, 0⟩, gangState c) := by
    simp only [State.translate, hr, hz, Nat.add_zero]
    rw [hf]
    simp [CachedXlat.at, xlatOf]
  simpa [State.sysPort, State.descWith, h1, h2, h3, hl, hd] using ht

theorem gangState_image (c : BitVec 1024) (hc : c = gangSlot 0 5 0 1 ∨ c = gangSlot 1 5 0 1) :
    (gangState c).granaryOk 0 0x4000020000000000 = (true, gangState c) := by
  have fold : ∀ (f : Bool × State → Nat → Bool × State) (l : List Nat), (∀ i ∈ l, f (true, gangState c) i = (true, gangState c)) →
      l.foldl f (true, gangState c) = (true, gangState c) := by
    intro f l
    induction l with
    | nil => intro _; rfl
    | cons i l ih => intro h; rw [List.foldl_cons, h i (by simp)]; exact ih (fun j hj => h j (by simp [hj]))
  have hg : ∀ i, i < 601 → (gangState c).inGranary (0x10000000000 + 2 ^ 36 + 4096 * i) = true ∧
      (gangState c).inGranary (0x10000000000 + 2 ^ 36 + 4096 * i + 4095) = true := by
    rcases hc with rfl | rfl <;> decide +kernel
  unfold State.granaryOk
  rw [if_neg (by decide)]
  apply fold
  intro i hi
  have hi : i < 601 := by simpa [granaryBytes] using hi
  simp only [gangState_page c hc i hi, (hg i hi).1, (hg i hi).2]
  rfl

/-- A switch out and a restore that are accepted. -/
theorem witness_GangSwitch_queue (c : BitVec 1024) (hc : c = gangSlot 0 5 0 1 ∨ c = gangSlot 1 5 0 1) :
    (gangState c).gang = none ∧ (gangState c).gangHead < (gangState c).gangTail ∧ gangCommand (gangState c) = c ∧
    ((gangState c).gangRefused (Gang.ofSlot 0 c) c).1 = false ∧
    ((gangState c).gangRefused (Gang.ofSlot 0 c) c).2.ptime.toNat < (c.extractLsb' 64 64).toNat := by
  have hi := gangState_image c hc
  have hx : (gangState c).gangCtx 5 = 0 := by rcases hc with rfl | rfl <;> decide +kernel
  have hh : ((gangState c).headerOk (Gang.ofSlot 0 c)).1 = true ∧ ((gangState c).headerOk (Gang.ofSlot 0 c)).2.ptime = 0 := by
    rcases hc with rfl | rfl <;> decide +kernel
  have hj : (Gang.ofSlot 0 c).job = 5 ∧ (Gang.ofSlot 0 c).gran = 0x4000020000000000 ∧ (Gang.ofSlot 0 c).spen = false ∧
      (Gang.ofSlot 0 c).op ≤ 1 ∧ gangField c 2 14 = 0 ∧ gangField c 217 39 = 0 ∧ gangField c 312 8 = 0 ∧ gangField c 384 640 = 0 ∧
      0 < (c.extractLsb' 64 64).toNat ∧ gangCommand (gangState c) = c ∧ (gangState c).ptime = 0 ∧ (gangState c).gang = none ∧
      (gangState c).gangHead < (gangState c).gangTail := by
    rcases hc with rfl | rfl <;> decide +kernel
  obtain ⟨h1, h2, h3, h4, h5, h6, h7, h8, h9, h10, h11, h12, h13⟩ := hj
  refine ⟨h12, h13, h10, ?_⟩
  have h3' : (Gang.ofSlot 0 c).op ≠ 3 := by omega
  have h2' : (Gang.ofSlot 0 c).op ≠ 2 := by omega
  clear hc
  generalize Gang.ofSlot 0 c = g at h1 h2 h3 h4 hh h3' h2' ⊢
  unfold State.gangRefused
  rw [if_neg (by simp [h5, h6, h7, h8, h3']), if_neg (by simp [h1, h2']), if_neg h2', h1, hx, h2, hi]
  by_cases h : g.op = 1
  · simp only [h, hh, h3, if_true]
    exact ⟨rfl, h9⟩
  · simp only [h, h3, if_false, h11]
    exact ⟨rfl, h9⟩

/-- Commands refused: JOB 0 with a switch out, OP 3, a JOB with a quiesce. -/
theorem witness_GangSwitch_refused :
    ([gangSlot 0 0 0 1, gangSlot 3 5 0 1, gangSlot 2 5 0 1].all (fun c => ((gangState c).gangRefused (Gang.ofSlot 0 c) c).1)) = true := by decide +kernel

/-- A quiesce whose reserved bits are 0; a restore whose START has passed. -/
theorem witness_GangSwitch_quiesce :
    (let c : BitVec 1024 := 2
     c.extractLsb' 0 32 == 2 && c.extractLsb' 217 39 == 0 && c.extractLsb' 312 8 == 0 && c.extractLsb' 384 640 == 0) = true ∧
    (let g := Gang.ofSlot 0 (gangSlot 1 5 0 0)
     g.op == 1 && g.start.toNat ≤ State.reset.ptime.toNat) = true := by decide +kernel

/-- The command in service. -/
def serving (g : Gang) (sweeps : List Sweep) : State :=
  let s : State := { State.reset with gang := some g, gangTail := 1, gangSlots := [(0, gangSlot g.op g.job 0 0)] }
  (List.range 8).foldl (fun s r => s.setRouter r { s.router r with sweeps := sweeps }) s

/-- A sweep of a job. -/
def sweepOf (job : Nat) (closed : List Nat) : Sweep := ⟨job, 0, 0, false, closed, [], [], false, []⟩

theorem witness_GangSwitch_sweep :
    (let s := serving (Gang.ofSlot 0 (gangSlot 0 5 0 0)) []
     s.gang = some (Gang.ofSlot 0 (gangSlot 0 5 0 0)) ∧ s.allSteps = [] ∧ (0 : Word64).toNat ≤ s.ptime.toNat) ∧
    State.reset.gang = none ∧ (((serving (Gang.ofSlot 0 (gangSlot 0 5 0 0)) [sweepOf 5 []]).router 7).sweeps.any (fun w => w.job == 5 && w.gseq == 0)) = true ∧
    (let s : State := { serving (Gang.ofSlot 0 (gangSlot 0 5 0 0)) [sweepOf 5 []] with time := 4000000 }
     4000000 ≤ s.time - (sweepOf 5 []).start ∧ 3 * 9 + 2 ∉ (sweepOf 5 []).closed) ∧
    ([(0, 5), (2, 0)].all (fun c =>
      let g := { Gang.ofSlot 0 (gangSlot c.1 c.2 0 0) with began := true }
      let s := serving g [sweepOf c.2 (List.range 30)]
      s.gang == some g && (List.range 8).all (fun r => (s.router r).sweeps.find? (fun v => v.job = g.job) == some (sweepOf c.2 (List.range 30)) &&
        (s.router r).sweepClosed (sweepOf c.2 (List.range 30)) && (s.router r).sweptClean g.job) && (s.gangContexts g.job).isEmpty)) = true := by
  decide +kernel

/-- A packet of job 5. -/
def jobPacket : Packet := ⟨BitVec.ofNat 512 (5 * 2 ^ 40), []⟩

/-- What a packet does is one of the two clauses' cases; OPC's codes are the hardware's. -/
theorem witness_GangSwitch_packets :
    (let g := { Gang.ofSlot 0 (gangSlot 0 5 0 0) with began := true }
     let s := serving g [sweepOf 5 []]
     let s := s.setRouter 7 ((s.router 7).setInput 9 2 [⟨0, []⟩, jobPacket])
     s.gang = some g ∧ ((s.router 7).input 9 2).find? (fun p => p.job = g.job) = some jobPacket ∧
     (s.router 7).sweeps.find? (fun w => w.job = g.job) = some (sweepOf 5 [])) ∧
    ((serving (Gang.ofSlot 0 0) [{ sweepOf 5 [] with late := [(7 * 9 + 2, [jobPacket])] }]).router 7).lateFirst 9 2 =
      some ({ sweepOf 5 [] with late := [(7 * 9 + 2, [jobPacket])] }, jobPacket) ∧
    (gangSlot 0 65535 (2 ^ 32 - 1) 0).extractLsb' 16 16 = BitVec.ofNat 16 65535 ∧ (gangSlot 0 65535 (2 ^ 32 - 1) 0).extractLsb' 0 16 = 0 := by
  decide +kernel

theorem witness_GangSwitch_step : jobPacket.does = some 2 ∨ jobPacket.does ≠ some 2 := Decidable.em _

/-! The scale-out network -/

/-- A region entry of key 0, valid for everything, at offset 0 of object 2. -/
def aRegion : BitVec 256 := BitVec.ofNat 256 (15 + 0x4000020000000000 * 2 ^ 64 + 4096 * 2 ^ 128)

/-- The state with queue pair 7. -/
def withQp (s : State) (q : QueuePair) : State := { s with qps := [(7, q)] }

/-- A pair that is ready. -/
def qpReady : QueuePair := { QueuePair.reset with valid := true, st := 1 }

/-- A request with two packets on their way. -/
def aNetReq : NetReq :=
  { seq := 1, verb := .write, ctx := 0, launch := 0, core := 0, slot := 0, prec := 0, age := 0, pc := pc0, bar := none, word := none
    ptr := 0, remote := 0, len := 2048, key := 0, imm := 0, psn := some 4
    packets := [⟨1, 4, .write, 0, 0, 2048, [1], false, 0⟩, ⟨1, 5, .write, 0, 1, 2048, [2], true, 0⟩], placed := 0, place := [], hold := none, sent := 0, descs := [] }

/-- NPOST of 16 bytes of object 2 by queue pair 7. -/
def npostWord (m : BitVec 13) : FmtA := ⟨0, 0xF8, 0xF8, 0xC4, 0, 0, 0, m⟩

/-- It is ready to issue on a pair. -/
def npostState (w : Word64) (q : QueuePair) (len : Word64) : State :=
  withQp (withS (withS (withS (withTensor (ready w)) 4 0x4000020000000000) 6 len) 7 7) q

/-- On a pair that takes requests, on one that does not, and a .send longer than a packet. -/
theorem witness_Network_post :
    ([(npostWord 0, (0xE200F8F8C4000000 : Word64), qpReady, (16 : Word64)), (npostWord 0, 0xE200F8F8C4000000, QueuePair.reset, 16),
      (npostWord 0x180, 0xE200F8F8C4000180, qpReady, 2048)].all (fun c =>
      let s := npostState c.2.1 c.2.2.1 c.2.2.2
      meets (.npost c.1) 0 s (fun e => (s.issued.checksThenBar e (npostChecks c.1 e s.issued) none).toOption == some none &&
        (s.core 0).pendRoom none && (s.qp 7).takes == c.2.2.1.valid && (c.1.mod == 0 || (verbOf 3 == .send && (s.qp 7).payload < 2048))))) = true := by
  decide +kernel

theorem witness_Network_pairs :
    (State.reset.qp 4095).valid = false ∧ ((withQp State.reset qpReady).qp 7).valid = true ∧ ((withQp State.reset qpReady).qp 7).out = [] ∧
    (let s := withQp State.reset { qpReady with out := [aNetReq] }
     (s.qp 7).out = [aNetReq] ∧ (∃ p ∈ aNetReq.packets, ackCovers p.psn 4 = true) ∧ (∃ p ∈ aNetReq.packets, ackCovers p.psn 4 = false) ∧
     (s.qp 7).out.find? (fun o => o.packets.any (fun p => p.psn == 5)) = some aNetReq ∧ (s.qp 7).tries < 7 ∧
     (s.ptime - (s.qp 7).since).toNat < 4 * (s.qp 7).base ∧
     ((((s.setQp 7 { s.qp 7 with tries := 0, since := s.ptime, out := [], base := min (s.qp 7).base (s.ptime - aNetReq.sent).toNat }).netComplete
       7 aNetReq 1).qp 7).out = [])) ∧
    (let s := withQp State.reset { qpReady with out := [aNetReq], tries := 7, base := 0 }
     7 ≤ (s.qp 7).tries ∧ 4 * (s.qp 7).base ≤ (s.ptime - (s.qp 7).since).toNat ∧ (s.qp 7).out.find? (fun r => r.psn.isSome && !r.packets.isEmpty) = some aNetReq) ∧
    ([0, 2 ^ 24 - 1].all (fun n =>
      let s : State := { withQp (withTensor (ready 0)) { qpReady with epsn := n } with regions := [(0, aRegion)], xlats := [xlatOf 2 0 0 0 0] }
      let p : RdmaPacket := ⟨7, n, .write, 0, 0, 1, [9], true, 0⟩
      (s.qp 7).epsn < 2 ^ 24 && (s.qp 7).mtu != 3 && (s.qp 7).seen.isEmpty && s.packetOk (s.qp 7) p && !s.packetOk (s.qp 7) { p with offset := 4096 } &&
        ((s.intoRegion (s.qp 7) 0 0 [9]).toOption.any (fun s1 => s1.qp 7 == s.qp 7)))) = true := by decide +kernel

/-! Loss and errors -/

/-- A line of core 0's L1, clean. -/
def cleanLine : Bool := (tabFind ((ready 0).core 0).l1 (l1Key 0 (ptrLineNo placedHeader))).any (fun y => y.dirty == 0)

theorem witness_LossAndErrors :
    ((∀ m, m < 256 → m ≠ State.reset.moduleId.toNat → State.reset.live.getLsbD m = true → (0 : BitVec 256).getLsbD m = true)) ∧
    (let s : State := { State.reset with live := 8 }
     s.live.getLsbD 3 = true ∧ (0 : BitVec 256).getLsbD 3 = false ∧ (({ s with live := 0, mepoch := 1 } : State).recoverLines).lower = [] ∧
     (({ s with live := 0, mepoch := 1 } : State).recoverLines).upper = [] ∧
     (({ s with live := 0, mepoch := 1 } : State).recoverLines).allSteps = []) ∧
    ([DirState.x, .o, .s, .p].all (fun st => ({ DirEntry.idle with state := st, owner := 9 } : DirEntry).state == st && !State.reset.isLive (9 / 8))) = true ∧
    (State.reset.ownMemory (5 * 128) = true ∧ 5 ∉ State.reset.failed ∧
      (let s : State := { State.reset with corrected := [(0, List.replicate 15 0)] }
       ((s.ptime :: (tabGet [] s.corrected 0).filter (fun t => (s.ptime - t).toNat ≤ 2 ^ 40)).length = 16))) ∧
    (((ready 0).group 0 0).any (fun g => (g.prec 0).state == .running && (g.prec 0).lanes.getLsbD 31) = true ∧ cleanLine = true) ∧
    ((State.reset.setRouter 7 ((State.reset.router 7).setInput 9 2 [jobPacket])).router 7).input 9 2 = [jobPacket] ∧
    ((ready 0).ctx 0).valid = true := by decide +kernel

/-- A state at which a step is taken: reset itself. -/
theorem witness_MemoryStaysCanonical : Memory.wf State.reset.mem = true ∧ (match step State.reset with | .next _ => true | _ => false) = true := by
  decide +kernel

/-! ### Ill-formed terms -/

/-- One term for each check: a MOD bit of no entry, a type, an unused field, TRAPSEL of an unused field, a source specifier, an
odd pair, a destination specifier, an odd destination pair, an s destination of per-lane sources, a group of four registers. -/
def illFormedWords : List Instr := [
  .iadd ⟨4, 5, 6, 0, 0, 0, 0, 1⟩, .iadd ⟨4, 5, 6, 0, 8, 0, 0, 0⟩, .iadd ⟨4, 5, 6, 7, 0, 0, 0, 0⟩, .iadd ⟨4, 5, 6, 0, 0, 0, 1, 0⟩,
  .iadd ⟨4, 0xFA, 6, 0, 0, 0, 0, 0⟩, .iadd ⟨4, 5, 6, 0, 2, 0, 0, 0⟩, .iadd ⟨0xF9, 5, 6, 0, 0, 0, 0, 0⟩, .iadd ⟨5, 6, 8, 0, 2, 0, 0, 0⟩,
  .iadd ⟨0xC0, 5, 0xC1, 0, 0, 0, 0, 0⟩, .ldc ⟨6, 8, 0, 0, 0, 0, 6, 0, 0, 0⟩]

theorem test_illformed_words : ∀ i ∈ illFormedWords, i.wellFormed = false := by decide

/-- One event for each kind of number that names nothing. -/
theorem test_illformed_events : ∀ i ∈ (([
     .starvationGuard 33280 0, .starvationGuard 0 4, .parkWake 0 64 0, .parkWake 0 0 4, .binTimerExpiry 0 64, .teamEnd 0 64,
     .engineArbitrationRound 128, .contextEnd 64, .queueEnable 64, .configRegisterWrite (.cosMask 16) 0, .translationWalk 4 0 0,
     .translationRetry (2 ^ 56), .migrationEnable 36 0, .migrationEnable 0 8, .gather ⟨2 ^ 49, 0⟩, .gather ⟨0, 256⟩, .convert ⟨0, 0⟩ 2048,
     .portDisable 8 0, .portDisable 0 9, .packetRoute 0 10 0, .packetRoute 0 0 7, .qpEnable 4096, .measurementExtend 8 0, .ftgtWrite 24 0,
     .stepAbortReceive 256 0 0 0, .errorCorrected (.memory (2 ^ 49)), .ethernetLinkTraining 8 0, .resetRelease ⟨0, 0, 0, 0, some 6⟩,
     .hostAccess ⟨2, .tensor 0, .read 1⟩] : List Instr)), i.wellFormed = false := by decide

/-! ### One step each -/

/-- Registers v5 and v6 of every lane. -/
def withVals (s : State) (a b : Word32) : State :=
  withGroup s (fun g => (List.range 32).foldl (fun g l => (g.setVreg 5 l a).setVreg 6 l b) g)

/-- What v register c of lane 31 holds after an instruction. -/
def afterV (i : Instr) (s : State) (c : Nat) : Option Word32 :=
  match exec i s with
  | .next t => (t.group 0 0).map (fun g => g.vreg c 31)
  | _ => none

/-- R92: the sum of 0xFFFFFFFF and 1 wraps; R94: signed saturation of the greatest number plus 1. -/
theorem test_iadd_wraps : afterV (.iadd ⟨4, 5, 6, 0, 1, 0, 0, 0⟩) (withVals (ready 0x0104050600100000) 0xFFFFFFFF 1) 4 = some 0 ∧
    afterV (.iadd ⟨4, 5, 6, 0, 0, 0, 0, 8⟩) (withVals (ready 0x0104050600000008) 0x7FFFFFFF 1) 4 = some 0x7FFFFFFF := by decide +kernel

/-- R93: A less B, not B less A. -/
theorem test_isub_order : afterV (.isub ⟨4, 5, 6, 0, 0, 0, 0, 0⟩) (withVals (ready 0x0404050600000000) 7 9) 4 = some 0xFFFFFFFE := by decide +kernel

/-- R95: the high half of a product, signed and not. -/
theorem test_imulh_sign : afterV (.imulh ⟨4, 5, 6, 0, 0, 0, 0, 0⟩) (withVals (ready 0x0804050600000000) 0xFFFFFFFF 2) 4 = some 0xFFFFFFFF ∧
    afterV (.imulh ⟨4, 5, 6, 0, 1, 0, 0, 0⟩) (withVals (ready 0x0804050600100000) 0xFFFFFFFF 2) 4 = some 1 := by decide +kernel

/-- R103: a count of the width. -/
theorem test_shl_width : afterV (.shl ⟨4, 5, 6, 0, 1, 0, 0, 0⟩) (withVals (ready 0x1E04050600100000) 1 32) 4 = some 0 := by decide +kernel

/-- R103: the upper word of 0x80000001 : 0xF000000F shifted left by 4. -/
theorem test_fshl : afterV (.fshl ⟨4, 5, 6, 0, 1, 0, 0, 0⟩)
    (withGroup (withVals (ready 0x2204050600100000) 0x80000001 0xF000000F) (fun g => g.setVreg 0 31 4)) 4 = some 0x0000001F := by
  decide +kernel

/-- R133: VOTE.some with an s destination gives 0xFFFFFFFF, zero-extended. -/
theorem test_vote_some : (match exec (.vote ⟨0xC3, 5, 0, 0, 0, 0, 0, 0x80⟩) (withVals (ready 0x74C3050000000080) 1 0) with
    | .next t => (t.group 0 0).map (fun g => g.sreg 3)
    | _ => none) = some 0xFFFFFFFF := by decide +kernel

/-- R159: a store that returns late leaves v0 and v1 as they were, D of its word being 0. -/
theorem test_late_store : (memOpOf (.stc ⟨0, 8, 4, 0, 0, 0, 5, 0, 0, 0⟩)).map MemOp.dstRegs = some [] := by decide

/-- R110: 1.5 + 2.25 = 3.75, and 2^24 + 1 rounds to even. -/
theorem test_fadd : afterV (.fadd ⟨4, 5, 6, 0, 8, 0, 0, 0⟩) (withVals (ready 0x4004050600800000) 0x3FC00000 0x40100000) 4 = some 0x40700000 ∧
    afterV (.fadd ⟨4, 5, 6, 0, 8, 0, 0, 0⟩) (withVals (ready 0x4004050600800000) 0x4B800000 0x3F800000) 4 = some 0x4B800000 := by decide +kernel

/-- R241: a word that has gone on leaves its path at the next one. -/
theorem test_pc_advances : (match exec .nop (ready 0) with
    | .next t => (t.group 0 0).map (fun g => (g.prec 0).place.word)
    | _ => none) = some (pc0 + 8) := by decide +kernel

/-- R156: a taken branch whose block has no FETCH hint; its target's first word issues ten cycles later. -/
theorem test_branch_waits : (match exec (.br ⟨0, 0, 2, 0, 0⟩) (readyCode 0x8000000000000200 [0, hdr]) with
    | .next t => ((t.afterWord (readyCode 0x8000000000000200 [0, hdr]) ⟨0, 0, 0⟩ (.br ⟨0, 0, 2, 0, 0⟩)).group 0 0).map (fun g => (g.prec 0).ready)
    | _ => none) = some 10 := by decide +kernel

/-- A word placed by withFetchWord is the one that runs next: MOVI of 0x12345678 to v4 (R106). -/
theorem test_placed : (match step (State.reset.withFetchWord 64 0x3104001234567810) with
    | .next t => (t.group 0 0).map (fun g => Group.vreg g 4 31)
    | _ => none) = some 0x12345678 := by decide +kernel

end Sys2Proof.Tests
end

/-! SUPPORT. Immediate forms (R73, R106): what they write, by the rule of an instruction that computes D. -/

namespace Sys2Proof.Machine

open Claim

theorem one_le_tyRegs (t : BitVec 4) : 1 ≤ tyRegs t := by unfold tyRegs; split <;> decide

theorem immValue_eq_ite (t : BitVec 4) (imm : Word32) :
    immValue t imm = if t = 2 then imm.signExtend 64 else imm.zeroExtend 64 := by simp [immValue]

/-- The predicate that D[2:0] names, as a specifier (R28, R106). -/
theorem predSpecifier_eq_or (d : BitVec 8) : BitVec.ofNat 8 (0xF0 + fieldOf d 0 3) = 0xF0 ||| (d &&& 7) := by
  have hfield : fieldOf d 0 3 = d.toNat &&& 7 := (Nat.and_two_pow_sub_one_eq_mod d.toNat 3).symm
  have hlt : d.toNat &&& 7 < 2 ^ 4 := Nat.lt_of_le_of_lt Nat.and_le_right (by decide)
  have hor : 0xF0 + (d.toNat &&& 7) = 0xF0 ||| (d.toNat &&& 7) := Nat.two_pow_add_eq_or_of_lt hlt 15
  apply BitVec.eq_of_toNat_eq
  rw [hfield, BitVec.toNat_ofNat, Nat.mod_eq_of_lt (by omega), hor]
  rfl

/-- A word whose meaning is an immediate form computes its function of A and of IMM32 widened by the type. -/
theorem immOp_computes {i : Instr} {f : FmtI} {d : BitVec 8} {r : Word64 → Word64 → Word64}
    (hexec : ∀ s, exec i s = immOp i f d r s) :
    Computes i f.guard d (tyRegs f.ty) (f.ty == 0) (fun _ e l =>
      r (e.g.read f.a (tyRegs f.ty) l) (if f.ty = 2 then f.imm.signExtend 64 else f.imm.zeroExtend 64)) := by
  simpa only [immValue_eq_ite] using compute_computes (one_le_tyRegs f.ty) hexec

/-- ICMPI's meaning, its destination written as the specifier that D[2:0] makes. -/
theorem exec_icmpi (f : FmtI) (s : State) :
    exec (.icmpi f) s = immOp (.icmpi f) f (0xF0 ||| (f.d &&& 7)) (cmpInt f.ty (fieldOf f.d 3 3)) s := by
  rw [← predSpecifier_eq_or]; rfl

/-- Settles O10: each word's meaning is an immediate form, and an immediate form computes D. -/
theorem immediates : Obligations.Immediates := by
  refine fun f => ⟨fun x hx => immOp_computes fun s => ?_, immOp_computes (exec_icmpi f)⟩
  simp only [List.mem_cons, List.not_mem_nil, or_false] at hx
  obtain rfl | rfl | rfl | rfl | rfl | rfl | rfl | rfl | rfl := hx <;> rfl

end Sys2Proof.Machine

/-! SUPPORT. A word within a block that is no instruction (R64, R67): the step takes the fault of the whole path. -/

namespace Sys2Proof

/-- A header's bits [63:58] make its opcode one of 0xF8 to 0xFB. -/
theorem opcodeOf_div_four_of_header {w : Word64} (h : w.extractLsb' 58 6 = 0b111110#6) : opcodeOf w / 4 = 0x3E := by
  have hbits : w.toNat >>> 58 % 2 ^ 6 = 0x3E := by simpa using congrArg BitVec.toNat h
  simp only [opcodeOf, BitVec.extractLsb'_toNat, Nat.shiftRight_eq_div_pow] at hbits ⊢
  omega

theorem decode_of_header {w : Word64} (h : w.extractLsb' 58 6 = 0b111110#6) : decode w = .error .header := by
  have hop := opcodeOf_div_four_of_header h
  have hne : opcodeOf w ≠ 0 := by omega
  simp only [decode, hne, hop, ↓reduceIte]

end Sys2Proof

namespace Sys2Proof.Machine

open Claim

/-- Inside a block a word that does not decode leaves the record's fetch with the class 1 fault of its whole path. -/
theorem fetchNext_undecodable {s s1 : State} {r : IssueRef} {g : Group} {w : Word64} {d : DecodeError}
    (hg : s.group r.core r.slot = some g) (hrun : (g.prec r.prec).state = .running)
    (hin : (g.prec r.prec).place.word ≠ (g.prec r.prec).place.block)
    (hfetch : s.fetchWord r.core g.ctx (g.prec r.prec).place.word = (.word w, s1)) (hdec : decode w = .error d) :
    s.fetchNext r = .error (s1.trapFault r.core r.slot r.prec (g.prec r.prec).lanes (g.prec r.prec).place 1
      (g.prec r.prec).place.word 0 0 0 (lowestLane (g.prec r.prec).lanes)) := by
  simp only [State.fetchNext, hg, hrun, hin, hfetch, hdec, ne_eq, not_true_eq_false, ↓reduceIte, ite_self]

/-- Where no split waits there is none to rank. -/
theorem finishSplits_of_noSplit {t : State} {r : IssueRef} (h : NoSplit t r) : t.finishSplits r.core r.slot = t := by
  unfold State.finishSplits
  split
  case h_1 => rfl
  case h_2 g hg => simp [h g hg]

theorem step_of_fetchNext_error {s t : State} {r : IssueRef} {rest : List IssueRef} (hissue : s.issuing = r :: rest)
    (hfetch : ({ s with issuing := rest } : State).fetchNext r = .error t) :
    step s = .next (t.finishSplits r.core r.slot) := by
  simp only [step, hissue, hfetch]

/-- Settles O6: the decoder rejects a header, and the fetch of a rejected word is the path's fault. -/
theorem headerWithinBlock : Obligations.HeaderWithinBlock := by
  intro s s1 r rest g w hissue hg hrun hin hfetch hheader
  have herror := fetchNext_undecodable (s := { s with issuing := rest }) hg hrun hin hfetch (decode_of_header hheader)
  have hstep := step_of_fetchNext_error hissue herror
  exact ⟨hstep, fun hno => by rw [hstep, finishSplits_of_noSplit hno]⟩

end Sys2Proof.Machine

/-! SUPPORT. Packed elements (R44, R92): each element of a packed number, and of an elementwise result. -/

namespace Sys2Proof.Machine

theorem packElems_lt (w : Nat) (l : List Nat) : packElems w l < 2 ^ (w * l.length) := by
  induction l with
  | nil => simp [packElems]
  | cons x xs ih =>
    have hx : x % 2 ^ w < 2 ^ w := Nat.mod_lt _ (Nat.two_pow_pos w)
    calc packElems w (x :: xs) = x % 2 ^ w + 2 ^ w * packElems w xs := rfl
      _ < 2 ^ w * (packElems w xs + 1) := by rw [Nat.mul_succ]; omega
      _ ≤ 2 ^ w * 2 ^ (w * xs.length) := Nat.mul_le_mul_left _ ih
      _ = 2 ^ (w * (x :: xs).length) := by rw [← Nat.pow_add, List.length_cons, Nat.mul_succ, Nat.add_comm]

theorem packElems_div_mod (w : Nat) (l : List Nat) (i : Nat) (h : i < l.length) :
    packElems w l / 2 ^ (w * i) % 2 ^ w = l[i] % 2 ^ w := by
  induction l generalizing i with
  | nil => simp at h
  | cons x xs ih =>
    cases i with
    | zero => simp [packElems]
    | succ i =>
      have htail : (x % 2 ^ w + 2 ^ w * packElems w xs) / 2 ^ w = packElems w xs := by
        rw [Nat.add_mul_div_left _ _ (Nat.two_pow_pos w), Nat.div_eq_of_lt (Nat.mod_lt _ (Nat.two_pow_pos w)), Nat.zero_add]
      rw [packElems, Nat.mul_succ, Nat.add_comm (w * i), Nat.pow_add, ← Nat.div_div_eq_div_mul, htail]
      exact ih i (Nat.lt_of_succ_lt_succ h)

theorem elemBits_packElems {w : Nat} {l : List Nat} {i : Nat} (h : i < l.length) (hw : w * l.length ≤ 64) :
    elemBits (BitVec.ofNat 64 (packElems w l)) w i = l[i] % 2 ^ w := by
  have hfits : packElems w l < 2 ^ 64 := Nat.lt_of_lt_of_le (packElems_lt w l) (Nat.pow_le_pow_right (by decide) hw)
  rw [elemBits, BitVec.toNat_ofNat, Nat.mod_eq_of_lt hfits, Nat.shiftRight_eq_div_pow, packElems_div_mod w l i h]

/-- The elements of every type fit a lane value. -/
theorem elemWidth_mul_tyElems_le : ∀ t : BitVec 4, elemWidth t * tyElems t ≤ 64 := by decide

theorem lowBits_lt (w : Nat) (e : Int) : lowBits w e < 2 ^ w := by
  have hpos : (0 : Int) < 2 ^ w := Int.pow_pos (by decide)
  have hlt : e % 2 ^ w < ((2 ^ w : Nat) : Int) := Int.natCast_pow 2 w ▸ Int.emod_lt_of_pos e hpos
  exact (Int.toNat_lt (Int.emod_nonneg e (Int.ne_of_gt hpos))).mpr hlt

theorem fitBits_lt (w : Nat) (sgn sat : Bool) (e : Int) : fitBits w sgn sat e < 2 ^ w := lowBits_lt w _

theorem lowBits_zero (w : Nat) : lowBits w 0 = 0 := by simp [lowBits]

/-- The low bits of minus one are all ones. -/
theorem lowBits_neg_one (w : Nat) : lowBits w (-1) = 2 ^ w - 1 := by
  have hpos : (0 : Int) < 2 ^ w := Int.pow_pos (by decide)
  have hmod : (-1 : Int) % 2 ^ w = 2 ^ w - 1 := by
    rw [← Int.add_emod_right]
    exact (Int.emod_eq_of_lt (by omega) (by omega)).trans (by omega)
  have hcast : (2 : Int) ^ w = ((2 ^ w : Nat) : Int) := (Int.natCast_pow 2 w).symm
  rw [lowBits, hmod, hcast]
  omega

/-- Element i of an elementwise result is the fitted result on the elements i of its sources (R92). -/
theorem elemBits_elementwise {t : BitVec 4} {i : Nat} (hi : i < tyElems t) (sat : Bool) (op : Int → Int → Int → Int)
    (a b c : Word64) :
    elemBits (elementwise t sat op a b c) (elemWidth t) i =
      fitBits (elemWidth t) (tySigned t) sat (op (elem a i t) (elem b i t) (elem c i t)) := by
  rw [elementwise, elemBits_packElems (by simpa using hi) (by simpa using elemWidth_mul_tyElems_le t)]
  simpa using Nat.mod_eq_of_lt (fitBits_lt ..)

end Sys2Proof.Machine

/-! SUPPORT. ICMP (R98): the elements of its result, and its illegal cases (R26, R72). -/

namespace Sys2Proof.Machine

open Claim

/-- A word that is not legal is a fault of its whole path, before any other part of its issue (R72). -/
theorem issue_not_legal {i : Instr} {guard : BitVec 4} {e : Iss} {s : State} {x : Shape} (he : s.issuer guard = some e)
    (hshape : shapeOf i = some x) (hlegal : x.legal = false) (fixed pre : Iss → State → Bool) (body : Iss → State → State) :
    s.issue i guard fixed pre body = .next (s.issued.illegal e) := by
  simp only [State.issue, he, hshape, hlegal, Bool.false_and, Bool.not_false, ↓reduceIte]

/-- A word that computes D, and is not legal, is illegal whoever issues it. -/
theorem compute_illegal {i : Instr} {guard : BitVec 4} {d : BitVec 8} {n : Nat} {sx : Bool} {v : Iss → Nat → Word64} {x : Shape}
    (hexec : ∀ s, exec i s = s.compute i guard d n sx v) (hshape : shapeOf i = some x) (hlegal : x.legal = false) :
    Illegal i guard := by
  intro s e he
  rw [hexec, State.compute, issue_not_legal he hshape hlegal]
  rfl

theorem exec_icmp (f : FmtA) (s : State) :
    exec (.icmp f) s = s.compute (.icmp f) f.guard f.d (tyRegs f.ty) (f.ty == 0)
      (fun e l => cmpInt f.ty (fieldOf f.mod 7 3) (f.valA e.g l) (f.valB e.g l)) := rfl

/-- The integer types of code 4 and above are the packed ones (R44). -/
theorem tyPacked_of_tyInt : ∀ t : BitVec 4, tyInt t = true → 4 ≤ t.toNat → tyPacked t = true := by decide

theorem shapeIcmp_not_legal {f : FmtA} (h : 7 < f.ty.toNat ∨ 5 < fieldOf f.mod 7 3 ∨ (isP f.d = true ∧ 4 ≤ f.ty.toNat)) :
    (shapeIcmp f).legal = false := by
  suffices hok : (tyInt f.ty && modOnly f.mod 0x380 && decide (fieldOf f.mod 7 3 ≤ 5) && !(tyPacked f.ty && isP f.d)) = false by
    simp only [shapeIcmp, shapeAB, Shape.legal, hok, Bool.false_and]
  obtain hty | hcond | ⟨hpred, hpacked⟩ := h
  · have hint : tyInt f.ty = false := by simpa [tyInt] using hty
    simp [hint]
  · simp [Nat.not_le.mpr hcond]
  · cases hint : tyInt f.ty with
    | false => rfl
    | true => simp [tyPacked_of_tyInt f.ty hint hpacked, hpred]

theorem intCond_ne (x y : Int) : intCond 1 x y = decide (x ≠ y) := (decide_not (p := x = y)).symm

/-- An element of a comparison is all ones where the condition holds, zero elsewhere (R98). -/
theorem elemBits_cmpInt {t : BitVec 4} {i : Nat} (hi : i < tyElems t) (code : Nat) (a b : Word64) :
    elemBits (cmpInt t code a b) (elemWidth t) i =
      if intCond code (elem a i t) (elem b i t) then 2 ^ elemWidth t - 1 else 0 := by
  rw [cmpInt, elemBits_elementwise hi]
  cases intCond code (elem a i t) (elem b i t) with
  | true => exact lowBits_neg_one _
  | false => exact lowBits_zero _

/-- Settles O9: ICMP computes D, its elements are those of `cmpInt`, and a word of an illegal case is not legal. -/
theorem comparisons : Obligations.Comparisons := by
  refine ⟨fun f => compute_computes (one_le_tyRegs f.ty) (exec_icmp f), fun t a b i _ hi c hc => ?_,
    fun f hcase => compute_illegal (exec_icmp f) rfl (shapeIcmp_not_legal hcase)⟩
  have hcond : intCond c.1 (elem a i t) (elem b i t) = c.2 := by
    simp only [List.mem_cons, List.not_mem_nil, or_false] at hc
    obtain rfl | rfl | rfl | rfl | rfl | rfl := hc
    · rfl
    · exact intCond_ne _ _
    · rfl
    · rfl
    · rfl
    · rfl
  rw [elemBits_cmpInt hi, hcond]

end Sys2Proof.Machine

/-! SUPPORT. PLOP (R136): its result is a write of D, the bit of each lane one of the truth table; its illegal cases (R26, R72). -/

namespace Sys2Proof.Machine

open Claim

/-- A word is no more than its mask, so a field outside the mask is zero (R71). -/
theorem fieldOf_of_modOnly {w : Nat} {m : BitVec w} {mask : Nat} (h : modOnly m mask = true) (lo n : Nat)
    (hmask : mask >>> lo % 2 ^ n = 0) : fieldOf m lo n = 0 := by
  have hand : m.toNat &&& mask = m.toNat := by simpa [modOnly] using h
  rw [fieldOf, ← hand, Nat.shiftRight_and_distrib, Nat.and_mod_two_pow, hmask, Nat.and_zero]

theorem shapePlop_legal_isP {f : FmtA} (h : (shapePlop f).legal = true) :
    isP f.d = true ∧ (isP f.a || isZ f.a) = true ∧ (isP f.b || isZ f.b) = true := by
  simp only [Shape.legal, shapePlop, Bool.and_eq_true] at h
  obtain ⟨⟨⟨hok, -⟩, -⟩, -⟩ := h
  obtain ⟨⟨⟨⟨⟨⟨hd, ha⟩, hb⟩, -⟩, -⟩, -⟩, -⟩ := hok
  exact ⟨hd, ha, hb⟩

theorem isZ_eq_false {c : BitVec 8} (h : c ≠ 0xF8) : isZ c = false := by
  simpa [isZ, ← BitVec.toNat_inj] using h

theorem shapePlop_not_legal {f : FmtA} (h : isP f.d = false ∨ (isP f.a = false ∧ f.a ≠ 0xF8) ∨ (isP f.b = false ∧ f.b ≠ 0xF8) ∨
    fieldOf f.mod 11 2 ≠ 0 ∨ fieldOf f.mod 0 7 ≠ 0 ∨ f.trap ≠ 0) : (shapePlop f).legal = false := by
  suffices hok : (shapePlop f).ok = false by simp only [Shape.legal, hok, Bool.false_and]
  have hmod : ∀ lo n, 0x780 >>> lo % 2 ^ n = 0 → fieldOf f.mod lo n ≠ 0 → modOnly f.mod 0x780 = false :=
    fun lo n hmask hne => Bool.eq_false_iff.mpr fun hm => hne (fieldOf_of_modOnly hm lo n hmask)
  rw [shapePlop]
  obtain hd | ⟨hp, hz⟩ | ⟨hp, hz⟩ | hhigh | hlow | htrap := h
  · simp [hd]
  · simp [hp, isZ_eq_false hz]
  · simp [hp, isZ_eq_false hz]
  · simp [hmod 11 2 rfl hhigh]
  · simp [hmod 0 7 rfl hlow]
  · simp only [beq_eq_false_iff_ne.mpr htrap, Bool.and_false, Bool.false_and]

/-- The bit of a specifier that names a predicate or zero: zero's is false (R136). -/
theorem bitOf_eq_decide {c : BitVec 8} (h : (isP c || isZ c) = true) (g : Group) (l : Nat) :
    g.bitOf c l = decide (c ≠ 0xF8 ∧ g.predBit (c.toNat - 0xF0) l = true) := by
  cases hp : isP c with
  | true =>
    have hne : c ≠ 0xF8 := by rintro rfl; exact absurd hp (by decide)
    simp only [Group.bitOf, hp, hne, ne_eq, not_false_eq_true, true_and, ↓reduceIte, Bool.decide_eq_true]
  | false =>
    obtain rfl : c = 0xF8 := Decidable.byContradiction fun hne => by simp [hp, isZ_eq_false hne] at h
    simp [Group.bitOf, isP]

/-- The bit that PLOP gives a lane, as a lane value. -/
def plopLane (f : FmtA) (g : Group) (l : Nat) : Word64 :=
  (BitVec.ofBool (lutBit (fieldOf f.mod 7 4) (g.bitOf f.a l) (g.bitOf f.b l))).setWidth 64

theorem plopLane_getLsbD_zero (f : FmtA) (g : Group) (l : Nat) :
    (plopLane f g l).getLsbD 0 = lutBit (fieldOf f.mod 7 4) (g.bitOf f.a l) (g.bitOf f.b l) := by
  simp [plopLane]

theorem write_of_isP {d : BitVec 8} (h : isP d = true) (g : Group) (n : Nat) (sx : Bool) (act : LaneMask) (v : Nat → Word64) :
    g.write d n sx act v = g.setPred (d.toNat - 0xF0) act (maskOf ((lanesOf act).filter (fun l => (v l).getLsbD 0))) := by
  simp only [Group.write, isP_not_isV h, isP_not_isS h, h, Bool.false_eq_true, ↓reduceIte]

/-- Into a predicate, PLOP's meaning is that of a word that computes D. -/
theorem exec_plop {f : FmtA} (hd : isP f.d = true) (s : State) :
    exec (.plop f) s = s.compute (.plop f) f.guard f.d 1 false (fun e => plopLane f e.g) := by
  simp only [State.compute, write_of_isP hd, plopLane_getLsbD_zero]
  rfl

theorem shapePlop_legal_of_runs {f : FmtA} {e : Iss} {s : State} (h : Runs (.plop f) f.guard e s) : (shapePlop f).legal = true := by
  obtain ⟨_, _, _, hshape, hlegal, _⟩ := h
  rwa [Option.some.inj hshape]

/-- A word that runs is legal, so PLOP computes D whatever its fields are. -/
theorem plop_computes (f : FmtA) : Computes (.plop f) f.guard f.d 1 false (fun _ e => plopLane f e.g) := fun s e hr =>
  compute_computes (Nat.le_refl 1) (exec_plop (shapePlop_legal_isP (shapePlop_legal_of_runs hr)).1) s e hr

theorem plop_illegal {f : FmtA} (h : (shapePlop f).legal = false) : Illegal (.plop f) f.guard := by
  intro s e he
  have hexec : exec (.plop f) s = execPlop f s := rfl
  rw [hexec, execPlop, issue_not_legal he rfl h]
  rfl

/-- Settles O19: PLOP computes D, the bit of each lane is the truth table's, and a word of an illegal case is not legal. -/
theorem predicateLogic : Obligations.PredicateLogic := by
  refine ⟨fun f s e hr => ?_, fun f hcase => plop_illegal (shapePlop_not_legal hcase)⟩
  obtain ⟨t, g', hexec, honly, hmoves, hgens, ⟨-, -, hbits⟩, hkeep⟩ := plop_computes f s e hr
  obtain ⟨hd, ha, hb⟩ := shapePlop_legal_isP (shapePlop_legal_of_runs hr)
  refine ⟨t, g', hexec, honly, hmoves, hgens, fun l hl hact => ?_, hkeep⟩
  rw [hbits hd l hl hact, plopLane_getLsbD_zero, bitOf_eq_decide ha, bitOf_eq_decide hb]
  simp only [lutBit, decide_eq_true_eq]

end Sys2Proof.Machine
